-- ==== Sys2Proof/Word.lean ====
section
/-!
DEFINITION. The widths the spec fixes (`00_scope.md` R5, `10_state.md` R21, R28, R29): bytes, symbol fields, node
indices, code-table entries.
-/

namespace Sys2Proof

/-- A byte of the source or the sink, and a command word: 8 bits (R31, R100). -/
abbrev Byte := BitVec 8

/-- The 9-bit symbol field of a leaf record and of a node entry (`SYM_W` = 9, R5). It can hold 257 to 511, which are
no symbols (R98). -/
abbrev SymField := BitVec 9

/-- A node index, `NODE_IDX_W` = 10 bits (R5). -/
abbrev NodeIdx := BitVec 10

/-- A symbol, an integer 0 to 256 (R8): the index of `freq` and of the code table. -/
abbrev Symbol := Fin 257

/-- The width of `code_len[s]`, 9 bits (R29). -/
abbrev CodeLen := BitVec 9

/-- The width of `code_val[s]`, 256 bits (R29). -/
abbrev CodeVal := BitVec 256

end Sys2Proof
end

