-- ==== Sys2Proof/Syntax.lean ====
section
/-!
DEFINITION. The rows of spec/opcode_table.json: the fourteen commands (`30_encoding.md` R101) and the three fixed
fields of the compressed stream (R91, R92).
-/

namespace Sys2Proof

/-- One constructor per row of the opcode table. No command has an operand (R100). -/
inductive Instr where
  /-- `FCOUNT`, word 0x01 (R120). -/
  | fcount
  /-- `TBUILD`, word 0x02 (R130). -/
  | tbuild
  /-- `CGEN`, word 0x03 (R150). -/
  | cgen
  /-- `WMAGIC`, word 0x04 (R190). -/
  | wmagic
  /-- `WHDR`, word 0x05 (R153). -/
  | whdr
  /-- `REWIND`, word 0x06 (R191). -/
  | rewind
  /-- `ENCODE`, word 0x07 (R192). -/
  | encode
  /-- `CLOSE`, word 0x08 (R193). -/
  | close
  /-- `RMAGIC`, word 0x09 (R170). -/
  | rmagic
  /-- `RHDR`, word 0x0A (R171). -/
  | rhdr
  /-- `DECODE`, word 0x0B (R210). -/
  | decode
  /-- `COMPRESS`, word 0x0C (R230). -/
  | compress
  /-- `DECOMPRESS`, word 0x0D (R231). -/
  | decompress
  /-- `SRESET`, word 0x0F (R232). -/
  | sreset
  /-- The magic field of the stream, 32 bits (R91), holding `m`. -/
  | magicWord (m : BitVec 32)
  /-- The header record of an internal node, the bit "0" (R92). -/
  | hdrInternal
  /-- The header record of a leaf, "1" and nine symbol bits (R92); 257 to 511 are reserved (R98). -/
  | hdrLeaf (sym : SymField)
  deriving DecidableEq, Repr

/-- What reads the bits of an instruction: the command port (format `CMD8`), the magic check (`STREAM32`), or the
header reader, whose records are self-delimiting (`STREAM1`, `STREAM10`; R105). -/
inductive Format where
  /-- Format `CMD8` (R100). -/
  | cmd8
  /-- Format `STREAM32` (R91). -/
  | stream32
  /-- Formats `STREAM1` and `STREAM10` (R92): the first bit of a record tells which. -/
  | header
  deriving DecidableEq, Repr

/-- The format of each row. -/
def Instr.format : Instr → Format
  | .magicWord _ => .stream32
  | .hdrInternal => .header
  | .hdrLeaf _ => .header
  | .fcount | .tbuild | .cgen | .wmagic | .whdr | .rewind | .encode | .close => .cmd8
  | .rmagic | .rhdr | .decode | .compress | .decompress | .sreset => .cmd8

end Sys2Proof
end

