-- ==== Sys2Proof/WellFormed.lean ====
section
/-!
DEFINITION. Which instructions the compressor can produce (`30_encoding.md` R98): a leaf record holds a symbol 0 to
256. The decoder still accepts the reserved values 257 to 511, because the spec gives them an effect: reading one
raises `BAD_SYMBOL` (R98, R171).
-/

namespace Sys2Proof

/-- The one check: the symbol of a leaf record is a symbol (R92, R98). -/
def Instr.wellFormed : Instr → Bool
  | .hdrLeaf sym => decide (sym.toNat ≤ 256)
  | .magicWord _ | .hdrInternal => true
  | .fcount | .tbuild | .cgen | .wmagic | .whdr | .rewind | .encode | .close => true
  | .rmagic | .rhdr | .decode | .compress | .decompress | .sreset => true

end Sys2Proof
end

