-- ==== Sys2Proof/Decode.lean ====
section
/-!
DEFINITION. Bit strings in stream order (`00_scope.md` R6), the decoder and the encoder of the two encodings of
`30_encoding.md`: the command word (R100, R101) and the fields of the compressed stream (R91, R92).
-/

namespace Sys2Proof

/-- `bits_w(v)`: the bit string of length `w` holding `v`, most significant bit first (R6). -/
def bits (w v : Nat) : List Bool := (List.range w).map fun i => v.testBit (w - 1 - i)

/-- `val(s)`: the number whose representation, most significant bit first, is `s` (R6). -/
def val (s : List Bool) : Nat := s.foldl (fun a b => 2 * a + b.toNat) 0

/-- Why a decoder refuses: each reason by name. -/
inductive DecodeReject where
  /-- Bits 7:4 of a command word are not 0000 (R100, R102). -/
  | zeroField (w : Byte)
  /-- The `op` field is 0x0 or 0xE, which no command has (R102). -/
  | reservedOp (w : Byte)
  /-- Fewer bits than the field needs (R63). -/
  | truncated
  deriving DecidableEq, Repr

/-- The command a command word selects (R100, R101); every other word is illegal (R102). -/
def decodeCmd (w : Byte) : Except DecodeReject Instr :=
  if w.extractLsb' 4 4 = 0#4 then
    match (w.extractLsb' 0 4).toNat with
    | 0x1 => .ok .fcount
    | 0x2 => .ok .tbuild
    | 0x3 => .ok .cgen
    | 0x4 => .ok .wmagic
    | 0x5 => .ok .whdr
    | 0x6 => .ok .rewind
    | 0x7 => .ok .encode
    | 0x8 => .ok .close
    | 0x9 => .ok .rmagic
    | 0xA => .ok .rhdr
    | 0xB => .ok .decode
    | 0xC => .ok .compress
    | 0xD => .ok .decompress
    | 0xF => .ok .sreset
    | _ => .error (.reservedOp w)
  else .error (.zeroField w)

/-- The magic field is any 32 bits; whether they are `MAGIC` is the check of R170, not of the decoder (R91). -/
def decodeMagic (m : BitVec 32) : Instr := .magicWord m

/-- The record whose discriminator is `b` and, for a leaf, whose symbol field is `sym` (R92). -/
def decodeRecord (b : BitVec 1) (sym : SymField) : Instr :=
  if b = 0#1 then .hdrInternal else .hdrLeaf sym

/-- The decoder on a bit string in stream order: the instruction that the reader of format `f` finds at its start,
and the bits after it. A header record tells its own length (R105). -/
def decode (f : Format) (s : List Bool) : Except DecodeReject (Instr × List Bool) :=
  match f with
  | .cmd8 =>
    if s.length < 8 then .error .truncated
    else (decodeCmd (BitVec.ofNat 8 (val (s.take 8)))).map fun i => (i, s.drop 8)
  | .stream32 =>
    if s.length < 32 then .error .truncated
    else .ok (decodeMagic (BitVec.ofNat 32 (val (s.take 32))), s.drop 32)
  | .header =>
    match s with
    | [] => .error .truncated
    | false :: rest => .ok (decodeRecord 0#1 0#9, rest)
    | true :: rest =>
      if rest.length < 9 then .error .truncated
      else .ok (decodeRecord 1#1 (BitVec.ofNat 9 (val (rest.take 9))), rest.drop 9)

/-- The `op` code of a command (R101). -/
def opcode : Instr → Nat
  | .fcount => 0x1
  | .tbuild => 0x2
  | .cgen => 0x3
  | .wmagic => 0x4
  | .whdr => 0x5
  | .rewind => 0x6
  | .encode => 0x7
  | .close => 0x8
  | .rmagic => 0x9
  | .rhdr => 0xA
  | .decode => 0xB
  | .compress => 0xC
  | .decompress => 0xD
  | .sreset => 0xF
  | .magicWord _ | .hdrInternal | .hdrLeaf _ => 0

/-- The encoder: the bits of an instruction in stream order (R91, R92, R100). -/
def encode (i : Instr) : List Bool :=
  match i with
  | .magicWord m => bits 32 m.toNat
  | .hdrInternal => [false]
  | .hdrLeaf sym => true :: bits 9 sym.toNat
  | .fcount | .tbuild | .cgen | .wmagic | .whdr | .rewind | .encode | .close => bits 4 0 ++ bits 4 (opcode i)
  | .rmagic | .rhdr | .decode | .compress | .decompress | .sreset => bits 4 0 ++ bits 4 (opcode i)

/-- What a decoder that found an instruction answers, without the rest of the bits. -/
def decodeFirst (f : Format) (s : List Bool) : Option Instr :=
  match decode f s with
  | .ok (i, _) => some i
  | .error _ => none

/-- The instruction in a word as spec/opcode_table.json numbers its bits. The number of bits tells the format: 8 for a
command word, 32 for the magic field, 10 (16 in whole bytes) for a leaf record, whose bits in stream order are
`w[9]` to `w[0]`, and 1 for an internal record. In whole bytes an internal record has 8 bits too: the word 0, which is
no command (R102), is that record (log 22). -/
def decodeTableWord (nbits w : Nat) : Option Instr :=
  match nbits with
  | 1 => decodeFirst .header (bits 1 w)
  | 8 => if w = 0 then decodeFirst .header (bits 1 0) else decodeFirst .cmd8 (bits 8 w)
  | 10 => decodeFirst .header (bits 10 w)
  | 16 => decodeFirst .header (bits 10 w)
  | 32 => decodeFirst .stream32 (bits 32 w)
  | _ => none

end Sys2Proof
end

