-- ==== Sys2Proof/Config.lean ====
section
/-!
DEFINITION. The parameters of the hardware (`00_scope.md` R5) and the values the spec leaves unspecified.
What an implementation may choose (`MAGIC`, `COUNT_W`) is a record that State carries and no command changes, so that
every statement holds for every choice. The unspecified values are opaque constants: nothing can be proved of them.
-/

namespace Sys2Proof

/-- The open parameters (R5, R35, 92_eei_decisions.md "Parameters left open"). -/
structure Config where
  /-- `MAGIC`, the 32-bit magic number. -/
  magic : BitVec 32
  /-- `COUNT_W`, the width in bits of a count and of a weight. -/
  countW : Nat
  deriving DecidableEq, Repr

/-- The default parameters of R5: `MAGIC` = 0xFACE8201 (PRESUMED: the spec marks it as from general knowledge, log 4;
unsafe only for a claim about this value), `COUNT_W` = 32. -/
def Config.standard : Config := ⟨0xFACE8201#32, 32⟩

/-- `MAX_LEN` = 2^`COUNT_W` − 2 (R5, R298). -/
def Config.maxLen (c : Config) : Nat := 2 ^ c.countW - 2

/-- `NODE_CAP` = 513 entries of node memory (R5). -/
abbrev Config.nodeCap : Nat := 513

/-- `STACK_DEPTH` = 513 (R5, 90_conflicts.md C7). -/
abbrev Config.stackDepth : Nat := 513

/-- `NIL` = 1023, the node index that means "no child" (R5). -/
abbrev Config.nil : NodeIdx := 1023#10

/-- `PSEUDO_EOF` = 256 as a field value (R5). -/
abbrev Config.pseudoEof : SymField := 256#9

/-- `PSEUDO_EOF` = 256 as a symbol (R5). -/
abbrev Config.eofSymbol : Symbol := 256

/-- FREE VALUE: the unspecified `sym` of an internal node (R28, R130, R138), log 8; safe. -/
opaque Config.freeSym : Nat → SymField

/-- FREE VALUE: the unspecified `weight` of a parsed node (R28, R171), log 9; safe. -/
opaque Config.freeWeight : Nat → Nat

/-- FREE VALUE: the unspecified `code_len` of a symbol without a code (R150 (b)), log 10; safe. -/
opaque Config.freeCodeLen : Nat → Symbol → CodeLen

/-- FREE VALUE: the unspecified `code_val` of a symbol without a code (R150 (b)), log 10; safe. -/
opaque Config.freeCodeVal : Nat → Symbol → CodeVal

end Sys2Proof
end

