-- ==== Sys2Proof/Machine/State.lean ====
section
/-!
DEFINITION. The machine's state (`10_state.md` R20 to R36, `20_memory.md` R60, R66), the reasons a step can stop, and
the state after reset (R33, R290).
-/

namespace Sys2Proof.Machine

/-- Which unit reads the stream while a command runs. The spec's commands are atomic, so no run from reset shows this
(R24, R303); it lets one field of the stream be one step (DESIGN CHOICE, log 5; safe). -/
inductive Reader where
  /-- `RMAGIC` waits for the 32-bit magic field (R170). -/
  | magic
  /-- `RHDR` waits for the next header record (R171). -/
  | header
  deriving DecidableEq, Repr

/-- `STATUS.state` (R25). The value 3 is never produced (S15). -/
inductive RunState where
  /-- 0: a command may be issued. -/
  | idle
  /-- 1: a command is running; `r` is the unit that reads. -/
  | busy (r : Reader)
  /-- 2: a command raised; sticky (R258). -/
  | error
  deriving DecidableEq, Repr

/-- `STATUS.tree_state` (R23). The value 3 is never produced. -/
inductive TreeState where
  /-- 0: node memory holds no tree. -/
  | none
  /-- 1: a tree made by `TBUILD`. -/
  | built
  /-- 2: a tree made by `RHDR`. -/
  | parsed
  deriving DecidableEq, Repr

/-- The reason codes of `ERR.reason` (R250). Codes 10 to 15 are never produced. -/
inductive Reason where
  /-- 0 `NONE`. -/
  | noError
  /-- 1 `BAD_MAGIC` (R251). -/
  | badMagic
  /-- 2 `HDR_TRUNCATED` (R252). -/
  | hdrTruncated
  /-- 3 `PAYLOAD_TRUNCATED` (R253). -/
  | payloadTruncated
  /-- 4 `BAD_SYMBOL` (R254). -/
  | badSymbol
  /-- 5 `DEGENERATE_TREE` (R254). -/
  | degenerateTree
  /-- 6 `TREE_TOO_LARGE` (R254). -/
  | treeTooLarge
  /-- 7 `NO_CODE` (R262). -/
  | noCode
  /-- 8 `SEQ_ERROR` (R256). -/
  | seqError
  /-- 9 `ILLEGAL_CMD` (R255). -/
  | illegalCmd
  deriving DecidableEq, Repr

/-- One entry of node memory (R28). Weights are natural numbers, as R135 allows (log 12). -/
structure Node where
  /-- 1 = leaf. -/
  leaf : Bool
  /-- The symbol of a leaf; unspecified on an internal node. -/
  sym : SymField
  /-- The left child; `NIL` on a leaf. -/
  left : NodeIdx
  /-- The right child; `NIL` on a leaf. -/
  right : NodeIdx
  /-- The aggregate count; unspecified in a parsed tree. -/
  weight : Nat
  deriving DecidableEq, Repr

/-- One entry of the traversal stack (R32 (b)): an internal node that `RHDR` has numbered and that waits for its
children; the left child is known once its call has returned (R171). -/
structure Pending where
  /-- The node's index. -/
  idx : NodeIdx
  /-- The left child, when it has been read. -/
  left : Option NodeIdx
  deriving DecidableEq, Repr

/-- The machine's state. The fields `cmds`, `binds` and `freeTick` are the model's own (logs 1, 3 and 8); all others are
the spec's. -/
structure State where
  /-- The parameters (R5, R35); no step changes them. -/
  cfg : Config
  /-- The words the host is about to write to `CMD`, first one first (R24, R103). -/
  cmds : List Byte
  /-- The sources the host binds at the coming `SRESET`s (R232, R292). -/
  binds : List (List Byte)
  /-- `SRC`, the bound source (R60). -/
  src : List Byte
  /-- `src_pos`, a bit position (R60). -/
  srcPos : Nat
  /-- `snk_bits`, in the order written (R66). -/
  snkBits : List Bool
  /-- `snk_bytes`; no value until the sink is closed (R66, R68). -/
  snkBytes : Option (List Byte)
  /-- `snk_closed` (R23). -/
  snkClosed : Bool
  /-- `STATUS.state` (R25). -/
  run : RunState
  /-- `ERR.reason` (R26). -/
  err : Reason
  /-- `freq_valid` (R23). -/
  freqValid : Bool
  /-- `tree_state` (R23). -/
  treeState : TreeState
  /-- `code_valid` (R23). -/
  codeValid : Bool
  /-- `root` (R21). -/
  root : NodeIdx
  /-- `node_count` (R21). -/
  nodeCount : NodeIdx
  /-- `cur`, the decoder's cursor (R21). -/
  cur : NodeIdx
  /-- `freq[0..256]` (R27), natural numbers as R121 allows (log 12). -/
  freq : Vector Nat 257
  /-- `node[0..512]` (R28). -/
  nodes : Vector Node 513
  /-- `code_has[0..256]` (R29). -/
  codeHas : Vector Bool 257
  /-- `code_len[0..256]` (R29). -/
  codeLen : Vector CodeLen 257
  /-- `code_val[0..256]` (R29). -/
  codeVal : Vector CodeVal 257
  /-- `in_pq[0..512]` (R30): bit `i` is the membership of node `i`. -/
  inPq : BitVec 513
  /-- The traversal stack (R32 (b)), innermost entry first. -/
  stack : List Pending
  /-- How many free values have been used: each use takes a fresh one (log 8). -/
  freeTick : Nat
  deriving DecidableEq, Repr

/-- Why the machine stops. No run from a launch reaches one of these: each needs a state that breaks the invariant of
node memory (R34) or of the priority structure (R30), for which the spec gives no effect (log 14). -/
inductive Fault where
  /-- Raised by `TBUILD`, `CGEN`, `WHDR`, `DECODE`, and by a header record, for a node index 513 to 1023, which no entry
  of node memory has (R31). Safe. -/
  | noSuchNode
  /-- Raised by `CGEN` for a leaf whose `sym` field is 257 to 511, which no entry of the code table has (R31). Safe. -/
  | noSuchSymbol
  /-- Raised by `TBUILD` when it extracts from an empty priority structure (R133). Safe. -/
  | emptyQueue
  /-- Raised by `CGEN` and `WHDR` when a walk needs more than `STACK_DEPTH` nested calls (R32 (b)): node memory holds
  no tree. Safe. -/
  | stackOverflow
  deriving DecidableEq, Repr

/-- Why a step has no meaning. -/
inductive Refusal where
  /-- Answered only by an arm of `exec` whose instruction has no meaning yet. Safe. -/
  | notModelled (mnemonic : String)
  /-- Answered by `FCOUNT` and `COMPRESS` when the source is longer than `MAX_LEN`: the spec gives such a run no meaning
  and asks the model to refuse it (R298, S8; log 13). Safe. -/
  | inputTooLong
  deriving DecidableEq, Repr

/-- What an unwritten node entry holds (R33 leaves it unspecified; DESIGN CHOICE, log 7; unsafe). -/
def Node.blank : Node := ⟨false, 0#9, 0#10, 0#10, 0⟩

/-- The machine right after reset (R33, R290), with no source bound, no command pending and the default parameters.
The contents of `root`, `cur`, `freq`, `node` and the code table are unspecified in the spec and zero here (DESIGN CHOICE,
log 7; unsafe). -/
def State.reset : State where
  cfg := Config.standard
  cmds := []
  binds := []
  src := []
  srcPos := 0
  snkBits := []
  snkBytes := none
  snkClosed := false
  run := .idle
  err := .noError
  freqValid := false
  treeState := .none
  codeValid := false
  root := 0#10
  nodeCount := 0#10
  cur := 0#10
  freq := Vector.replicate 257 0
  nodes := Vector.replicate 513 Node.blank
  codeHas := Vector.replicate 257 false
  codeLen := Vector.replicate 257 0#9
  codeVal := Vector.replicate 257 0#256
  inPq := 0#513
  stack := []
  freeTick := 0

end Sys2Proof.Machine
end

