-- ==== Sys2Proof/Machine/Ops.lean ====
section
/-!
DEFINITION. The named operations over the streams (`20_memory.md` R60 to R68), node memory (R28), the code table (R29)
and the priority structure (R30, R133), the error entry (R257), and how a command is accepted and ends (R24, R25, R258).
-/

namespace Sys2Proof.Machine

/-! ### Streams -/

/-- The bits of one byte in stream order, most significant first (R61). -/
def byteBits (b : Byte) : List Bool := bits 8 b.toNat

/-- The whole source as a bit string: stream bit `k` is bit `7 − (k mod 8)` of byte `k div 8` (R61). -/
def State.srcBits (s : State) : List Bool := s.src.flatMap byteBits

/-- `SRC_BITS` = 8 × `SRC_LEN` (R60). -/
def State.srcEnd (s : State) : Nat := 8 * s.src.length

/-- How many bits are left to read. -/
def State.srcLeft (s : State) : Nat := s.srcEnd - s.srcPos

/-- `readBits(w)` (R62, R63): the next `w` bits as a number, or `EOS` (`none`); a failed read moves `src_pos` to the
end. -/
def readBits (w : Nat) (s : State) : Option (BitVec w) × State :=
  if s.srcPos + w ≤ s.srcEnd then
    (some (BitVec.ofNat w (val ((s.srcBits.drop s.srcPos).take w))), { s with srcPos := s.srcPos + w })
  else (none, { s with srcPos := s.srcEnd })

/-- `rewindToStart()` (R65). -/
def State.rewindToStart (s : State) : State := { s with srcPos := 0 }

/-- `writeBits(w, v)` (R67): appends `bits_w(v)`. -/
def State.writeBits (s : State) (w v : Nat) : State := { s with snkBits := s.snkBits ++ bits w v }

/-- The bytes of a bit string: byte `j` is `val` of bits `8j` to `8j + 7` (R68). -/
def packBytes (l : List Bool) : List Byte :=
  (List.range (l.length / 8)).map fun j => BitVec.ofNat 8 (val ((l.drop (8 * j)).take 8))

/-- The zero bits that reach the next byte boundary (R68). -/
def padding (n : Nat) : List Bool := List.replicate ((8 - n % 8) % 8) false

/-- `close()` (R68): pads, packs, and marks the sink closed. -/
def State.closeSink (s : State) : State :=
  { s with
    snkBits := s.snkBits ++ padding s.snkBits.length
    snkBytes := some (packBytes (s.snkBits ++ padding s.snkBits.length))
    snkClosed := true }

/-! ### Node memory, code table, priority structure -/

/-- The entry at a node index; there is none at 513 to 1023 (R28, R31). -/
def State.node? (s : State) (i : NodeIdx) : Option Node := s.nodes[i.toNat]?

/-- Writes node entry `i` (R28). -/
def State.setNode (s : State) (i : Fin 513) (n : Node) : State := { s with nodes := s.nodes.set i n }

/-- The next fresh free value is used (log 8). -/
def State.tick (s : State) : State := { s with freeTick := s.freeTick + 1 }

/-- A symbol field as an index of the code table; 257 to 511 are none (R98). -/
def symbol? (v : SymField) : Option Symbol := if h : v.toNat < 257 then some ⟨v.toNat, h⟩ else none

/-- A node index as an entry of node memory; 513 to 1023 are none (R31). -/
def entry? (i : NodeIdx) : Option (Fin 513) := if h : i.toNat < 513 then some ⟨i.toNat, h⟩ else none

/-- Writes the code of symbol `y`, the path `p` (R150): `code_len` is `|p|` and `code_val` is `val(p)`. -/
def State.setCode (s : State) (y : Symbol) (p : List Bool) : State :=
  { s with
    codeHas := s.codeHas.set y true
    codeLen := s.codeLen.set y (BitVec.ofNat 9 p.length)
    codeVal := s.codeVal.set y (BitVec.ofNat 256 (val p)) }

/-- Opens the code table for `CGEN` (R150): no symbol has a code, and the length and value of a symbol without a code
are unspecified (R150 (b)), hence free (log 10). -/
def State.clearCodes (s : State) : State :=
  { s with
    codeHas := Vector.replicate 257 false
    codeLen := Vector.ofFn (Config.freeCodeLen s.freeTick)
    codeVal := Vector.ofFn (Config.freeCodeVal s.freeTick)
    freeTick := s.freeTick + 1 }

/-- The members of the priority structure in ascending order of node index (R30). -/
def State.members (s : State) : List Nat := (List.range 513).filter fun i => s.inPq.getLsbD i

/-- The weight in the key of member `i` (R30, R133). -/
def State.weightOf (s : State) (i : Nat) : Nat := (s.nodes[i]?.getD Node.blank).weight

/-- `in_pq[i] <- 1` (R130). -/
def State.pqInsert (s : State) (i : Nat) : State := { s with inPq := s.inPq ||| BitVec.twoPow 513 i }

/-- `in_pq[i] <- 0` (R133). -/
def State.pqRemove (s : State) (i : Nat) : State := { s with inPq := s.inPq &&& ~~~(BitVec.twoPow 513 i) }

/-- The key order of R133: lower weight first; among equal weights, lower node index first. -/
def keyLt (w : Nat → Nat) (i j : Nat) : Bool := decide (w i < w j) || (decide (w i = w j) && decide (i < j))

/-- The member of a list with the least key, if there is one (R133). -/
def leastMember (w : Nat → Nat) : List Nat → Option Nat
  | [] => none
  | i :: rest =>
    match leastMember w rest with
    | none => some i
    | some j => if keyLt w j i then some j else some i

/-- `extract_min()` (R133): removes and returns the member with the least key; no answer on an empty structure. -/
def extractMin (s : State) : Option (Nat × State) :=
  (leastMember s.weightOf s.members).map fun i => (i, s.pqRemove i)

/-! ### How a command ends -/

/-- How the body of a command ends: at its last line, at a `raise` (R7), or at a stop of the model. -/
inductive Ended where
  /-- The last line has run. -/
  | ok (s : State)
  /-- `raise E(why)` at state `s` (R7). -/
  | raised (why : Reason) (s : State)
  /-- A stop with a fault. -/
  | fault (f : Fault)
  /-- A run without a meaning. -/
  | refused (r : Refusal)

/-- One line after another: what ends the first ends both (R7, R230). -/
def Ended.andThen (e : Ended) (k : State → Ended) : Ended :=
  match e with
  | .ok s => k s
  | .raised why s => .raised why s
  | .fault f => .fault f
  | .refused r => .refused r

/-- `require P else raise why` (R7). -/
def require (p : Bool) (why : Reason) (s : State) : Ended := if p then .ok s else .raised why s

/-- The running command stops: the reason is recorded and the state is `ERROR` (R257). Its pending calls are gone with it
(R32 (b): the traversal stack is empty between commands; log 18). -/
def State.stop (s : State) (why : Reason) : State := { s with err := why, run := .error, stack := [] }

/-- TAKING AN ERROR: the error entry, the same for all nine reasons: the command stops, and an open sink is closed (R257). -/
def errorEntry (why : Reason) (s : State) : State :=
  if (s.stop why).snkClosed then s.stop why else (s.stop why).closeSink

/-- THE WAY OUT of an error, and of anything else (R232, R258): every piece of state takes its reset value (R33). What is
not state of the hardware stays: the parameters, the host's pending words, and the source, unless the host binds the next
one here (R232, R292; log 3). -/
def softReset (s : State) : State :=
  { State.reset with
    cfg := s.cfg
    cmds := s.cmds
    binds := s.binds.tail
    src := s.binds.head?.getD s.src
    freeTick := s.freeTick }

/-- The end of a command as a step: `IDLE` after the last line (R25), the error entry after a `raise` (R257). -/
def finish (e : Ended) : Host.Outcome State Fault Refusal :=
  match e with
  | .ok s => .next { s with run := .idle }
  | .raised why s => .next (errorEntry why s)
  | .fault f => .fault f
  | .refused r => .refused r

/-- A command is accepted in `IDLE` (R24). In `ERROR` it is refused and nothing changes (R258); while `BUSY` the write is
ignored (R24). -/
def issue (body : State → Ended) (s : State) : Host.Outcome State Fault Refusal :=
  match s.run with
  | .idle => finish (body s)
  | .busy _ => .next s
  | .error => .next s

end Sys2Proof.Machine
end

