-- ==== Sys2Proof/Machine/Flags.lean ====
section
/-!
DEFINITION. The flags of `10_state.md` R23 and the words `STATUS` (R25) and `ERR` (R26) as the host reads them.
-/

namespace Sys2Proof.Machine

/-- The code of `STATUS.state` (R25). -/
def runCode : RunState → BitVec 2
  | .idle => 0#2
  | .busy _ => 1#2
  | .error => 2#2

/-- The code of `tree_state` (R23). -/
def treeCode : TreeState → BitVec 2
  | .none => 0#2
  | .built => 1#2
  | .parsed => 2#2

/-- The code of an error reason (R250). -/
def reasonCode : Reason → BitVec 4
  | .noError => 0#4
  | .badMagic => 1#4
  | .hdrTruncated => 2#4
  | .payloadTruncated => 3#4
  | .badSymbol => 4#4
  | .degenerateTree => 5#4
  | .treeTooLarge => 6#4
  | .noCode => 7#4
  | .seqError => 8#4
  | .illegalCmd => 9#4

/-- `STATUS` (R25): reserved bit 7, `snk_closed`, `code_valid`, `tree_state`, `freq_valid`, `state`. -/
def State.status (s : State) : BitVec 8 :=
  0#1 ++ BitVec.ofBool s.snkClosed ++ BitVec.ofBool s.codeValid ++ treeCode s.treeState ++ BitVec.ofBool s.freqValid
    ++ runCode s.run

/-- `ERR` (R26): bits 7:4 read 0, bits 3:0 are the reason. -/
def State.errWord (s : State) : BitVec 8 := 0#4 ++ reasonCode s.err

/-- A count pass invalidates everything downstream (R23, R120). -/
def State.dropAll (s : State) : State := { s with freqValid := false, treeState := .none, codeValid := false }

/-- A new tree invalidates the old one and its codes (R23, R130, R171). -/
def State.dropTree (s : State) : State := { s with treeState := .none, codeValid := false }

/-- The sink is open (R23). -/
def State.sinkOpen (s : State) : Bool := !s.snkClosed

/-- A tree is valid, built or parsed (R23). -/
def State.hasTree (s : State) : Bool := decide (s.treeState ≠ .none)

end Sys2Proof.Machine
end

