-- ==== Sys2Proof/Machine/Operands.lean ====
section
/-!
DEFINITION. The assembled operands of `30_encoding.md` R96: the symbol a data byte stands for, the code of a symbol, and
the byte a decoded symbol is written as. (The 9-bit symbol field and the 32-bit magic field are read by `readBits`.)
-/

namespace Sys2Proof.Machine

/-- The symbol of a data byte: the byte's value, 0 to 255 (R8, R120). -/
def dataSymbol (b : Byte) : Symbol := ⟨b.toNat, Nat.lt_of_lt_of_le b.isLt (by decide)⟩

/-- R96 (c): the code of symbol `y`, `bits_L(code_val[y])` with `L = code_len[y]` (R29). -/
def State.codeOf (s : State) (y : Symbol) : List Bool := bits s.codeLen[y].toNat s.codeVal[y].toNat

/-- Appends the code of symbol `y` to the sink: `writeBits(code_len[y], code_val[y])` (R192). -/
def State.writeCode (s : State) (y : Symbol) : State := s.writeBits s.codeLen[y].toNat s.codeVal[y].toNat

/-- R96 (d): the decoded data byte `sym[7:0]` (R210). -/
def dataByte (v : SymField) : Byte := v.extractLsb' 0 8

end Sys2Proof.Machine
end

