-- ==== Sys2Proof/Machine/BitstreamDecoder.lean ====
section
/-!
DEFINITION. `DECODE`, the bitstream decoder (`45_bitstream_decoder.md` R210 to R212).
-/

namespace Sys2Proof.Machine

/-- The child of `n` that the payload bit `b` selects: 0 is left, 1 is right (R210). -/
def Node.child (n : Node) (b : BitVec 1) : NodeIdx := if b = 0#1 then n.left else n.right

/-- The loop of R210. The first argument is the number of bits left, so that at 0 the read answers `EOS`. -/
def decodeLoop : Nat → State → Ended
  | 0, s => .raised .payloadTruncated (readBits 1 s).2
  | k + 1, s =>
    match readBits 1 s with
    | (none, s1) => .raised .payloadTruncated s1
    | (some b, s1) =>
      match s1.node? s1.cur with
      | none => .fault .noSuchNode
      | some n =>
        match s1.node? (n.child b) with
        | none => .fault .noSuchNode
        | some c =>
          if c.leaf then
            if c.sym = Config.pseudoEof then .ok { s1 with cur := n.child b }
            else decodeLoop k { s1.writeBits 8 (dataByte c.sym).toNat with cur := s1.root }
          else decodeLoop k { s1 with cur := n.child b }

/-- The body of `DECODE` (R210), with the one-node tree of R211 first. -/
def decodeBody (s : State) : Ended :=
  (require (s.hasTree && s.sinkOpen) .seqError s).andThen fun s =>
    match s.node? s.root with
    | none => .fault .noSuchNode
    | some n =>
      if n.leaf then require (decide (n.sym = Config.pseudoEof)) .degenerateTree s
      else decodeLoop s.srcLeft { s with cur := s.root }

/-- `DECODE` (R210). -/
def execDecode (s : State) : Host.Outcome State Fault Refusal := issue decodeBody s

end Sys2Proof.Machine
end

