-- ==== Sys2Proof/Machine/BitstreamEncoder.lean ====
section
/-!
DEFINITION. `WMAGIC`, `REWIND`, `ENCODE`, `CLOSE`, the bitstream encoder (`44_bitstream_encoder.md` R190 to R194).
-/

namespace Sys2Proof.Machine

/-- The body of `WMAGIC` (R190). -/
def wmagicBody (s : State) : Ended :=
  (require s.sinkOpen .seqError s).andThen fun s => .ok (s.writeBits 32 s.cfg.magic.toNat)

/-- `WMAGIC` (R190). -/
def execWmagic (s : State) : Host.Outcome State Fault Refusal := issue wmagicBody s

/-- The body of `REWIND` (R191). -/
def rewindBody (s : State) : Ended := .ok s.rewindToStart

/-- `REWIND` (R191). -/
def execRewind (s : State) : Host.Outcome State Fault Refusal := issue rewindBody s

/-- The loop of R192: reads bytes until `EOS` and appends the code of each. The first argument is the number of whole bytes
left, so that at 0 the read answers `EOS`. -/
def encodeLoop : Nat → State → Ended
  | 0, s => .ok (readBits 8 s).2
  | n + 1, s =>
    match readBits 8 s with
    | (none, s1) => .ok s1
    | (some v, s1) =>
      if s1.codeHas[dataSymbol v] then encodeLoop n (s1.writeCode (dataSymbol v)) else .raised .noCode s1

/-- The body of `ENCODE` (R192). -/
def encodeBody (s : State) : Ended :=
  (require (s.codeValid && s.sinkOpen) .seqError s).andThen fun s =>
    (encodeLoop (s.srcLeft / 8) s).andThen fun s => .ok { s.writeCode Config.eofSymbol with codeValid := false }

/-- `ENCODE` (R192). -/
def execEncode (s : State) : Host.Outcome State Fault Refusal := issue encodeBody s

/-- The body of `CLOSE` (R193). -/
def closeBody (s : State) : Ended := (require s.sinkOpen .seqError s).andThen fun s => .ok s.closeSink

/-- `CLOSE` (R193). -/
def execClose (s : State) : Host.Outcome State Fault Refusal := issue closeBody s

end Sys2Proof.Machine
end

