-- ==== Sys2Proof/Machine/FreqCounter.lean ====
section
/-!
DEFINITION. `FCOUNT`, the count pass (`40_freq_counter.md` R120, R121).
-/

namespace Sys2Proof.Machine

/-- `freq[v] <- freq[v] + 1` for the data byte `v` (R121). -/
def State.bump (s : State) (v : Byte) : State :=
  { s with freq := s.freq.set (dataSymbol v) (s.freq[dataSymbol v] + 1) }

/-- Every count is 0 and the sentinel's is 1 (R120). -/
def State.clearFreq (s : State) : State :=
  { s with freq := (Vector.replicate 257 0).set Config.eofSymbol 1 }

/-- The loop of R120: reads bytes until `EOS`. The first argument is the number of whole bytes left, so that at 0 the read
answers `EOS`. -/
def countLoop : Nat → State → State
  | 0, s => (readBits 8 s).2
  | n + 1, s =>
    match readBits 8 s with
    | (none, s1) => s1
    | (some v, s1) => countLoop n (s1.bump v)

/-- The body of `FCOUNT` (R120). A source longer than `MAX_LEN` is refused (R298). -/
def fcountBody (s : State) : Ended :=
  if s.cfg.maxLen < s.src.length then .refused .inputTooLong
  else .ok { countLoop (s.srcLeft / 8) s.dropAll.clearFreq with freqValid := true }

/-- `FCOUNT` (R120). -/
def execFcount (s : State) : Host.Outcome State Fault Refusal := issue fcountBody s

end Sys2Proof.Machine
end

