-- ==== Sys2Proof/Machine/TreeBuilder.lean ====
section
/-!
DEFINITION. `TBUILD`, the tree builder (`41_tree_builder.md` R130 to R138).
-/

namespace Sys2Proof.Machine

/-- Writes the entry of one present symbol and inserts it (R130, R131): node `n` becomes a leaf for `y`. -/
def State.addLeaf (s : State) (n : Fin 513) (y : Symbol) : State :=
  (s.setNode n ⟨true, BitVec.ofNat 9 y.val, Config.nil, Config.nil, s.freq[y]⟩).pqInsert n.val

/-- Writes the entry of one merge and inserts it (R130, R132, R135): node `n` gets `a` on the left and `b` on the right;
its `sym` is unspecified (R138), hence free (log 8). -/
def State.addMerge (s : State) (n : Fin 513) (a b : Nat) : State :=
  ((s.setNode n ⟨false, Config.freeSym s.freeTick, BitVec.ofNat 10 a, BitVec.ofNat 10 b, s.weightOf a + s.weightOf b⟩).pqInsert
    n.val).tick

/-- The leaf loop of R130 over the symbols of the list, with `n` the next free index. -/
def leafLoop : List Symbol → Nat → State → Except Fault (Nat × State)
  | [], n, s => .ok (n, s)
  | y :: rest, n, s =>
    if 0 < s.freq[y] then
      if h : n < 513 then leafLoop rest (n + 1) (s.addLeaf ⟨n, h⟩ y) else .error .noSuchNode
    else leafLoop rest n s

/-- One turn of the merge loop (R132): the node removed first goes left, the node removed second goes right. -/
def mergeOnce (n : Fin 513) (s : State) : Except Fault State :=
  match extractMin s with
  | none => .error .emptyQueue
  | some (a, s1) =>
    match extractMin s1 with
    | none => .error .emptyQueue
    | some (b, s2) => .ok (s2.addMerge n a b)

/-- The merge loop of R130, with `n` the next free index. The first argument is the number of free entries left. -/
def mergeLoop : Nat → Nat → State → Except Fault (Nat × State)
  | free, n, s =>
    if s.members.length ≤ 1 then .ok (n, s)
    else
      match free with
      | 0 => .error .noSuchNode
      | free + 1 =>
        if h : n < 513 then
          match mergeOnce ⟨n, h⟩ s with
          | .error f => .error f
          | .ok s1 => mergeLoop free (n + 1) s1
        else .error .noSuchNode

/-- The lines of R130 after its precondition and its invalidation. -/
def buildTree (s : State) : Except Fault State :=
  match leafLoop (List.finRange 257) 0 s with
  | .error f => .error f
  | .ok (n, s1) =>
    match mergeLoop (Config.nodeCap - n) n s1 with
    | .error f => .error f
    | .ok (m, s2) =>
      match extractMin s2 with
      | none => .error .emptyQueue
      | some (r, s3) =>
        .ok { s3 with root := BitVec.ofNat 10 r, nodeCount := BitVec.ofNat 10 m, freqValid := false, treeState := .built }

/-- The body of `TBUILD` (R130). -/
def tbuildBody (s : State) : Ended :=
  (require s.freqValid .seqError s).andThen fun s =>
    match buildTree s.dropTree with
    | .error f => .fault f
    | .ok s1 => .ok s1

/-- `TBUILD` (R130). -/
def execTbuild (s : State) : Host.Outcome State Fault Refusal := issue tbuildBody s

end Sys2Proof.Machine
end

