-- ==== Sys2Proof/Machine/TreeCodec.lean ====
section
/-!
DEFINITION. `CGEN` and `WHDR`, the tree codec (`42_tree_codec.md` R150 to R154). The walks are recursive, as the spec
writes them (R32 (b)); the first argument counts the nested calls left.
-/

namespace Sys2Proof.Machine

/-- `walk(i, p)` of R150: left before right. -/
def walk : Nat → NodeIdx → List Bool → State → Ended
  | 0, _, _, _ => .fault .stackOverflow
  | d + 1, i, p, s =>
    match s.node? i with
    | none => .fault .noSuchNode
    | some n =>
      if n.leaf then
        match symbol? n.sym with
        | none => .fault .noSuchSymbol
        | some y => .ok (s.setCode y p)
      else (walk d n.left (p ++ [false]) s).andThen (walk d n.right (p ++ [true]))

/-- The body of `CGEN` (R150). -/
def cgenBody (s : State) : Ended :=
  (require (decide (s.treeState = .built)) .seqError s).andThen fun s =>
    (walk Config.stackDepth s.root [] { s with codeValid := false }.clearCodes).andThen fun s =>
      .ok { s with codeValid := true }

/-- `CGEN` (R150). -/
def execCgen (s : State) : Host.Outcome State Fault Refusal := issue cgenBody s

/-- `put(i)` of R153. -/
def putTree : Nat → NodeIdx → State → Ended
  | 0, _, _ => .fault .stackOverflow
  | d + 1, i, s =>
    match s.node? i with
    | none => .fault .noSuchNode
    | some n =>
      if n.leaf then .ok ((s.writeBits 1 1).writeBits 9 n.sym.toNat)
      else (putTree d n.left (s.writeBits 1 0)).andThen (putTree d n.right)

/-- The body of `WHDR` (R153). -/
def whdrBody (s : State) : Ended :=
  (require (s.hasTree && s.sinkOpen) .seqError s).andThen fun s => putTree Config.stackDepth s.root s

/-- `WHDR` (R153). -/
def execWhdr (s : State) : Host.Outcome State Fault Refusal := issue whdrBody s

end Sys2Proof.Machine
end

