-- ==== Sys2Proof/Machine/TreeDecoder.lean ====
section
/-!
DEFINITION. `RMAGIC` and `RHDR`, the tree decoder (`43_tree_decoder.md` R170 to R173), and the three fields of the
stream that they read (R91, R92) as instructions of their own. The recursion `get()` of R171 is run with the traversal stack
of R32 (b): one turn is one header record.
-/

namespace Sys2Proof.Machine

/-- What the stream reader finds next. -/
inductive Fetched where
  /-- An instruction, and the state once its bits are consumed. -/
  | instr (i : Instr) (s : State)
  /-- The read raises. -/
  | raised (why : Reason) (s : State)

/-- The comparison of R170: all 32 bits. -/
def checkMagic (m : BitVec 32) (s : State) : Ended := require (decide (m = s.cfg.magic)) .badMagic s

/-- The body of `RMAGIC` (R170). -/
def rmagicBody (s : State) : Ended :=
  match readBits 32 s with
  | (none, s1) => .raised .badMagic s1
  | (some m, s1) => checkMagic m s1

/-- `RMAGIC` (R170). -/
def execRmagic (s : State) : Host.Outcome State Fault Refusal := issue rmagicBody s

/-- The read of the magic field as one instruction of the stream (R91, R170). -/
def fetchMagic (s : State) : Fetched :=
  match readBits 32 s with
  | (none, s1) => .raised .badMagic s1
  | (some m, s1) => .instr (decodeMagic m) s1

/-- The magic field reaching the magic check (R170): `RMAGIC` ends, well or with `BAD_MAGIC`. Where no magic check is
waiting nothing reads it (log 6). -/
def execMagicWord (m : BitVec 32) (s : State) : Host.Outcome State Fault Refusal :=
  match s.run with
  | .busy .magic => finish (checkMagic m s)
  | .busy .header | .idle | .error => .next s

/-- `node_count <- node_count + 1` (R171). -/
def State.countNode (s : State) : State := { s with nodeCount := s.nodeCount + 1#10 }

/-- The reads of one call of `get()` (R171): the capacity test, the discriminator, and for a leaf the symbol field. A leaf
whose field cannot be read in full has been numbered (R171, the order of its lines). -/
def fetchRecord (s : State) : Fetched :=
  if s.nodeCount = BitVec.ofNat 10 Config.nodeCap then .raised .treeTooLarge s
  else
    match readBits 1 s with
    | (none, s1) => .raised .hdrTruncated s1
    | (some b, s1) =>
      if b = 0#1 then .instr (decodeRecord b 0#9) s1
      else
        match readBits 9 s1 with
        | (none, s2) => .raised .hdrTruncated s2.countNode
        | (some v, s2) => .instr (decodeRecord b v) s2

/-- `return i` to the innermost pending call (R171): the first child returned is the left one, the second completes the
parent's entry, whose `sym` and `weight` are unspecified, hence free (logs 8 and 9). With no call pending `i` is the root and
the header is complete. -/
def returnNode : List Pending → NodeIdx → State → Ended
  | [], i, s => .ok { s with stack := [], root := i, treeState := .parsed }
  | ⟨j, none⟩ :: rest, i, s => .ok { s with stack := ⟨j, some i⟩ :: rest }
  | ⟨j, some l⟩ :: rest, i, s =>
    match entry? j with
    | none => .fault .noSuchNode
    | some e => returnNode rest j (s.setNode e ⟨false, Config.freeSym s.freeTick, l, i, Config.freeWeight s.freeTick⟩).tick

/-- An internal record (R171): it is numbered and waits for its children. -/
def takeInternal (s : State) : Ended :=
  if s.nodeCount = BitVec.ofNat 10 Config.nodeCap then .raised .treeTooLarge s
  else .ok { s.countNode with stack := ⟨s.nodeCount, none⟩ :: s.stack }

/-- A leaf record (R171): it is numbered, a reserved symbol raises `BAD_SYMBOL` (R98), and the call returns. -/
def takeLeaf (v : SymField) (s : State) : Ended :=
  if s.nodeCount = BitVec.ofNat 10 Config.nodeCap then .raised .treeTooLarge s
  else if 256 < v.toNat then .raised .badSymbol s.countNode
  else
    match entry? s.nodeCount with
    | none => .fault .noSuchNode
    | some e =>
      returnNode s.stack s.nodeCount
        (s.countNode.setNode e ⟨true, v, Config.nil, Config.nil, Config.freeWeight s.freeTick⟩).tick

/-- One header record, whichever it is. Only the two records are read by `fetchRecord`. -/
def takeRecord (i : Instr) (s : State) : Ended :=
  match i with
  | .hdrLeaf v => takeLeaf v s
  | .hdrInternal => takeInternal s
  | .magicWord _ => .ok s
  | .fcount | .tbuild | .cgen | .wmagic | .whdr | .rewind | .encode | .close => .ok s
  | .rmagic | .rhdr | .decode | .compress | .decompress | .sreset => .ok s

/-- One call of `get()` up to its record: the reads, then the record. -/
def headerTurn (s : State) : Ended :=
  match fetchRecord s with
  | .raised why s1 => .raised why s1
  | .instr i s1 => takeRecord i s1

/-- The header is complete when no call is pending (R105, R171). -/
def State.headerDone (s : State) : Bool := s.stack.isEmpty

/-- The records of a header, one after another (R171). The first argument is the number of free node entries; at 0 the
capacity test of R172 raises. -/
def headerLoop : Nat → State → Ended
  | 0, s => .raised .treeTooLarge s
  | n + 1, s => (headerTurn s).andThen fun s1 => if s1.headerDone then .ok s1 else headerLoop n s1

/-- The opening lines of `RHDR` (R171): the old tree is invalid, no node is numbered, no call is pending. -/
def State.openHeader (s : State) : State := { s.dropTree with nodeCount := 0#10, stack := [] }

/-- The body of `RHDR` (R171). -/
def rhdrBody (s : State) : Ended := headerLoop Config.nodeCap s.openHeader

/-- `RHDR` (R171). -/
def execRhdr (s : State) : Host.Outcome State Fault Refusal := issue rhdrBody s

/-- After a record the header reader either has a complete header, and `RHDR` ends, or waits for the next record
(R171). -/
def continueHeader (e : Ended) : Host.Outcome State Fault Refusal :=
  match e with
  | .ok s => if s.headerDone then finish (.ok s) else .next s
  | .raised why s => finish (.raised why s)
  | .fault f => .fault f
  | .refused r => .refused r

/-- The record of an internal node reaching the header reader (R92, R171). Where no header reader is waiting nothing reads
it (log 6). -/
def execHdrInternal (s : State) : Host.Outcome State Fault Refusal :=
  match s.run with
  | .busy .header => continueHeader (takeInternal s)
  | .busy .magic | .idle | .error => .next s

/-- The record of a leaf reaching the header reader (R92, R171). Where no header reader is waiting nothing reads it
(log 6). -/
def execHdrLeaf (sym : SymField) (s : State) : Host.Outcome State Fault Refusal :=
  match s.run with
  | .busy .header => continueHeader (takeLeaf sym s)
  | .busy .magic | .idle | .error => .next s

end Sys2Proof.Machine
end

