-- ==== Sys2Proof/Machine/TopLevel.lean ====
section
/-!
DEFINITION. `COMPRESS`, `DECOMPRESS` and `SRESET` (`46_top_level.md` R230 to R232).
-/

namespace Sys2Proof.Machine

/-- The last line of a macro command: the tree "lives for the duration of that single operation" (R230, R231). -/
def endMacro (s : State) : Ended := .ok { s with treeState := .none }

/-- The body of `COMPRESS` (R104, R230). -/
def compressBody (s : State) : Ended :=
  ((((((((fcountBody s).andThen tbuildBody).andThen cgenBody).andThen wmagicBody).andThen whdrBody).andThen
    rewindBody).andThen encodeBody).andThen closeBody).andThen endMacro

/-- `COMPRESS` (R230). -/
def execCompress (s : State) : Host.Outcome State Fault Refusal := issue compressBody s

/-- The body of `DECOMPRESS` (R104, R231). -/
def decompressBody (s : State) : Ended :=
  ((((rmagicBody s).andThen rhdrBody).andThen decodeBody).andThen closeBody).andThen endMacro

/-- `DECOMPRESS` (R231). -/
def execDecompress (s : State) : Host.Outcome State Fault Refusal := issue decompressBody s

/-- `SRESET` (R232): accepted in `IDLE` and in `ERROR` (R258); while `BUSY` the write is ignored (R24). -/
def execSreset (s : State) : Host.Outcome State Fault Refusal :=
  match s.run with
  | .idle | .error => .next (softReset s)
  | .busy _ => .next s

end Sys2Proof.Machine
end

