-- ==== Sys2Proof/Machine/Dispatch.lean ====
section
/-!
DEFINITION. One arm per row of the opcode table: each instruction has a meaning of its own.
-/

namespace Sys2Proof.Machine

def exec (i : Instr) (s : State) : Host.Outcome State Fault Refusal :=
  match i with
  | .fcount => Sys2Proof.Machine.execFcount s
  | .tbuild => Sys2Proof.Machine.execTbuild s
  | .cgen => Sys2Proof.Machine.execCgen s
  | .wmagic => Sys2Proof.Machine.execWmagic s
  | .whdr => Sys2Proof.Machine.execWhdr s
  | .rewind => Sys2Proof.Machine.execRewind s
  | .encode => Sys2Proof.Machine.execEncode s
  | .close => Sys2Proof.Machine.execClose s
  | .rmagic => Sys2Proof.Machine.execRmagic s
  | .rhdr => Sys2Proof.Machine.execRhdr s
  | .decode => Sys2Proof.Machine.execDecode s
  | .compress => Sys2Proof.Machine.execCompress s
  | .decompress => Sys2Proof.Machine.execDecompress s
  | .sreset => Sys2Proof.Machine.execSreset s
  | .magicWord m => Sys2Proof.Machine.execMagicWord m s
  | .hdrInternal => Sys2Proof.Machine.execHdrInternal s
  | .hdrLeaf sym => Sys2Proof.Machine.execHdrLeaf sym s

end Sys2Proof.Machine
end

