-- ==== Sys2Proof/Machine/Fetch.lean ====
section
/-!
DEFINITION. Where the next instruction comes from: the word the host writes to `CMD` (`10_state.md` R24), or, while a unit
reads the stream, the next field of the stream.
-/

namespace Sys2Proof.Machine

/-- What a step finds to do. -/
inductive Work where
  /-- An instruction to run at state `s`. -/
  | run (i : Instr) (s : State)
  /-- A `raise` before any instruction runs (R255, R259). -/
  | raised (why : Reason) (s : State)
  /-- Nothing to run: the step leaves state `s`. -/
  | stay (s : State)

/-- An illegal command word (R102, R255): it raises in `IDLE`; in `ERROR` and while `BUSY` it changes nothing (R258,
R24). -/
def illegalWord (s : State) : Work :=
  match s.run with
  | .idle => .raised .illegalCmd s
  | .busy _ | .error => .stay s

/-- The write of word `w` to `CMD` (R24, R101, R102). -/
def fetchCmd (w : Byte) (s : State) : Work :=
  match decodeCmd w with
  | .ok i => .run i s
  | .error _ => illegalWord s

/-- The next field of the stream for the unit that reads it. -/
def fetchField (r : Reader) (s : State) : Work :=
  match (match r with | .magic => fetchMagic s | .header => fetchRecord s) with
  | .instr i s1 => .run i s1
  | .raised why s1 => .raised why s1

/-- What the next step runs. A pending write to `CMD` comes first and is taken off the host's list; with none pending the
unit that reads goes on, and an idle or stopped machine waits (R290, R258). -/
def fetch (s : State) : Work :=
  match s.cmds with
  | w :: rest => fetchCmd w { s with cmds := rest }
  | [] =>
    match s.run with
    | .busy r => fetchField r s
    | .idle | .error => .stay s

/-- The host writes `w` to `CMD` next (R24). -/
def State.writeCmd (s : State) (w : Byte) : State := { s with cmds := w :: s.cmds }

/-- The stream from its start is `l`, and unit `r` reads it: `RMAGIC` or `RHDR` has just begun (R170, R171). Nothing is
pending at `CMD`. -/
def State.readingField (s : State) (r : Reader) (l : List Bool) : State :=
  { s.openHeader with cmds := [], src := packBytes (l ++ padding l.length), srcPos := 0, run := .busy r }

/-- The state whose next step runs the table row that has the bits `w` in `nbits` bits (log 22): a command word is written to
`CMD`; a field of the stream stands at the start of the source with its reader waiting. -/
def placeTableWord (s : State) (nbits w : Nat) : State :=
  match nbits with
  | 1 => s.readingField .header (bits 1 w)
  | 8 => if w = 0 then s.readingField .header (bits 1 0) else s.writeCmd (BitVec.ofNat 8 w)
  | 10 => s.readingField .header (bits 10 w)
  | 16 => s.readingField .header (bits 10 w)
  | 32 => s.readingField .magic (bits 32 w)
  | _ => s

end Sys2Proof.Machine
end

