-- ==== Sys2Proof/Machine/Step.lean ====
section
/-!
DEFINITION. One step of the machine: what `fetch` finds is run (`10_state.md` R24, `20_memory.md` R74).
-/

namespace Sys2Proof.Machine

/-- One step: an instruction, an illegal word's error entry, or waiting. -/
def step (s : State) : Host.Outcome State Fault Refusal :=
  match fetch s with
  | .run i s1 => exec i s1
  | .raised why s1 => finish (.raised why s1)
  | .stay s1 => .next s1

/-- `s` with a row of the opcode table where the next step finds it (log 22). -/
def State.withFetchWord (s : State) (nbits w : Nat) : State := placeTableWord s nbits w

end Sys2Proof.Machine
end

