-- ==== Sys2Proof/Safety.lean ====
section
/-!
DEFINITION. The terms of the claims: tree shapes (`00_scope.md` R8), header strings (`30_encoding.md` R93), what it means
that node memory holds a tree (`10_state.md` R34), the textbook greedy merge that `TBUILD` must agree with (R132, R136), the
invariants of the machine, and launches and command sequences (`70_reset_and_hazards.md` R292, `30_encoding.md` R104).
-/

namespace Sys2Proof.Machine

/-! ### Tree shapes -/

/-- A tree shape (R8): a leaf with its symbol, or a node with two children. -/
inductive Shape where
  /-- `Leaf(s)`. -/
  | leaf (sym : SymField)
  /-- `Node(l, r)`. -/
  | node (l r : Shape)
  deriving DecidableEq, Repr

/-- `leaves(t)` (R8). -/
def Shape.leaves : Shape → Nat
  | .leaf _ => 1
  | .node l r => l.leaves + r.leaves

/-- The symbols of the leaves, left to right. -/
def Shape.syms : Shape → List SymField
  | .leaf v => [v]
  | .node l r => l.syms ++ r.syms

/-- `ser(t)`, the header of a tree (R93). -/
def Shape.ser : Shape → List Bool
  | .leaf v => true :: bits 9 v.toNat
  | .node l r => false :: (l.ser ++ r.ser)

/-- The node records of the header of a tree, in preorder (R92). -/
def Shape.records : Shape → List Instr
  | .leaf v => [.hdrLeaf v]
  | .node l r => .hdrInternal :: (l.records ++ r.records)

/-- No record of the list is a leaf record with a reserved symbol (R98). -/
abbrev RecordsOk (l : List Instr) : Prop := ∀ i ∈ l, i.wellFormed = true

/-- Every leaf with the path that leads to it, "0" for left and "1" for right (R8). -/
def Shape.paths : Shape → List (SymField × List Bool)
  | .leaf v => [(v, [])]
  | .node l r => l.paths.map (fun e => (e.1, false :: e.2)) ++ r.paths.map (fun e => (e.1, true :: e.2))

/-- The code of a symbol in a tree: the path to its leaf (R151). -/
def Shape.code (t : Shape) (y : Symbol) : List Bool :=
  ((t.paths.find? fun e => e.1.toNat == y.val).map Prod.snd).getD []

/-- Every leaf holds a symbol 0 to 256 (R98). -/
abbrev Shape.symbolsOk (t : Shape) : Prop := ∀ v ∈ t.syms, v.toNat ≤ 256

/-! ### Trees in node memory -/

/-- A shape with the node index of every entry. -/
inductive ITree where
  /-- A leaf entry. -/
  | leaf (i : NodeIdx) (sym : SymField)
  /-- An internal entry with its two subtrees. -/
  | node (i : NodeIdx) (l r : ITree)
  deriving DecidableEq, Repr

/-- The index of the top entry. -/
def ITree.top : ITree → NodeIdx
  | .leaf i _ => i
  | .node i _ _ => i

/-- The shape, without indices (R8). -/
def ITree.shape : ITree → Shape
  | .leaf _ v => .leaf v
  | .node _ l r => .node l.shape r.shape

/-- The indices of the entries in preorder. -/
def ITree.indices : ITree → List Nat
  | .leaf i _ => [i.toNat]
  | .node i l r => i.toNat :: (l.indices ++ r.indices)

/-- Node memory holds every entry of the tree: leaf entries with `NIL` children, internal entries with the indices of their
two subtrees (R28, R34 (b)). -/
def ITree.storedIn (nodes : Vector Node 513) : ITree → Bool
  | .leaf i v =>
    match nodes[i.toNat]? with
    | none => false
    | some n => n.leaf && (n.sym == v && (n.left == Config.nil && n.right == Config.nil))
  | .node i l r =>
    match nodes[i.toNat]? with
    | none => false
    | some n => !n.leaf && (n.left == l.top && (n.right == r.top && (l.storedIn nodes && r.storedIn nodes)))

/-- Node memory holds the tree `t` at `root`, and the entries in use are exactly its entries, each once: R34 (a) to
(d). -/
abbrev HoldsTree (s : State) (t : ITree) : Prop :=
  t.top = s.root ∧ t.storedIn s.nodes = true ∧ t.indices.Nodup ∧ (∀ k ∈ t.indices, k < s.nodeCount.toNat) ∧
    (∀ k < s.nodeCount.toNat, k ∈ t.indices) ∧ t.shape.symbolsOk

/-- Entry `k` of node memory. -/
def State.entry (s : State) (k : Nat) : Node := s.nodes[k]?.getD Node.blank

/-- The numbering and the weights of a built tree (R34 (e)): leaves first, in ascending order of symbol, the sentinel last;
then the merges, each after its children and with the sum of their weights; the root last. -/
abbrev BuiltNumbering (s : State) (t : ITree) : Prop :=
  s.nodeCount.toNat = 2 * t.shape.leaves - 1 ∧ s.root.toNat = 2 * t.shape.leaves - 2 ∧
    (∀ i < t.shape.leaves, (s.entry i).leaf = true) ∧
    (∀ j < t.shape.leaves, ∀ i < j, (s.entry i).sym < (s.entry j).sym) ∧
    (s.entry (t.shape.leaves - 1)).sym = Config.pseudoEof ∧ t.shape.syms.Nodup ∧
    ∀ k < 2 * t.shape.leaves - 1, t.shape.leaves ≤ k →
      (s.entry k).leaf = false ∧ (s.entry k).left.toNat < k ∧ (s.entry k).right.toNat < k ∧
        (s.entry k).weight = (s.entry (s.entry k).left.toNat).weight + (s.entry (s.entry k).right.toNat).weight

/-- The numbering of a parsed tree (R34 (f)): preorder from 0. -/
abbrev ParsedNumbering (s : State) (t : ITree) : Prop := t.indices = List.range s.nodeCount.toNat

/-- The code table holds the codes of the tree `t` (R29, R150, R151). -/
def CodesOf (s : State) (t : Shape) : Prop :=
  (∀ y : Symbol, s.codeHas[y] = true ↔ BitVec.ofNat 9 y.val ∈ t.syms) ∧
    ∀ (y : Symbol) (p : List Bool), (BitVec.ofNat 9 y.val, p) ∈ t.paths →
      s.codeLen[y].toNat = p.length ∧ s.codeVal[y].toNat = val p ∧ s.codeOf y = p

/-! ### The textbook greedy merge -/

/-- Removes the first entry with the least weight; the others keep their order (R136: first in, first out among equal
weights). -/
def takeLeast : List (Nat × Shape) → Option ((Nat × Shape) × List (Nat × Shape))
  | [] => none
  | x :: rest =>
    match takeLeast rest with
    | none => some (x, [])
    | some (m, others) => if m.1 < x.1 then some (m, x :: others) else some (x, rest)

/-- The greedy merge on a list in order of insertion (R132): the two least are removed, the first goes left, and their sum is
inserted last. The first argument bounds the turns. -/
def huffman : Nat → List (Nat × Shape) → Shape
  | 0, l => (l.head?.map Prod.snd).getD (.leaf Config.pseudoEof)
  | k + 1, l =>
    match takeLeast l with
    | none => .leaf Config.pseudoEof
    | some (a, l1) =>
      match takeLeast l1 with
      | none => a.2
      | some (b, l2) => huffman k (l2 ++ [(a.1 + b.1, .node a.2 b.2)])

/-- The leaves that a frequency table gives, one per symbol with a count above zero, in ascending order (R131). -/
def leafList (freq : Vector Nat 257) : List (Nat × Shape) :=
  ((List.finRange 257).filter fun y => decide (0 < freq[y])).map fun y => (freq[y], .leaf (BitVec.ofNat 9 y.val))

/-- The tree of a frequency table (R130). -/
def huffmanTree (freq : Vector Nat 257) : Shape := huffman (leafList freq).length (leafList freq)

/-- The counts of a byte sequence, with 1 for the sentinel (R122). -/
def countsOf (l : List Byte) : Vector Nat 257 :=
  Vector.ofFn fun y : Symbol => if y = Config.eofSymbol then 1 else l.count (BitVec.ofNat 8 y.val)

/-- The compressed stream of a byte sequence before padding (R233). -/
def compressedBits (magic : BitVec 32) (l : List Byte) : List Bool :=
  bits 32 magic.toNat ++ (huffmanTree (countsOf l)).ser ++
    l.flatMap (fun b => (huffmanTree (countsOf l)).code (dataSymbol b)) ++
    (huffmanTree (countsOf l)).code Config.eofSymbol

/-! ### Runs -/

/-- A launch (R292): the reset state with the parameters, a bound source and the command words the host will write. -/
def launch (cfg : Config) (source : List Byte) (words : List Byte) : State :=
  { State.reset with cfg := cfg, src := source, cmds := words }

/-- The whole bytes that 8-bit reads will return before `EOS` (R63). -/
def State.bytesLeft (s : State) : List Byte := packBytes (s.srcBits.drop s.srcPos)

/-- Commands issued one after another, each when `STATUS.state = IDLE`; the sequence ends at the first that raises
(R103). -/
def runSeq : List Instr → State → Host.Outcome State Fault Refusal
  | [], s => .next s
  | i :: rest, s =>
    match exec i s with
    | .next u => if u.run = .idle then runSeq rest u else .next u
    | .fault f => .fault f
    | .refused r => .refused r

/-- The last line of a macro command, when no step has raised (R104). -/
def clearTree (o : Host.Outcome State Fault Refusal) : Host.Outcome State Fault Refusal :=
  match o with
  | .next u => if u.run = .idle then .next { u with treeState := .none } else .next u
  | .fault f => .fault f
  | .refused r => .refused r

/-! ### Reset values and invariants -/

/-- The values the spec states for reset (R33, R290). -/
abbrev AtReset (s : State) : Prop :=
  s.status = 0x00#8 ∧ s.errWord = 0x00#8 ∧ s.run = .idle ∧ s.err = .noError ∧ s.freqValid = false ∧
    s.treeState = .none ∧ s.codeValid = false ∧ s.snkClosed = false ∧ s.nodeCount = 0#10 ∧ s.inPq = 0#513 ∧
    s.stack = [] ∧ s.srcPos = 0 ∧ s.snkBits = [] ∧ s.snkBytes = none

/-- The control state between commands. -/
structure ControlInv (s : State) : Prop where
  /-- Commands are atomic: `BUSY` is never seen (R24, R303). -/
  atomic : ∀ r, s.run ≠ .busy r
  /-- `ERR.reason` is `NONE` exactly when the state is not `ERROR` (R26). -/
  reason : s.err = .noError ↔ s.run ≠ .error
  /-- The error entry has closed the sink (R257). -/
  errorCloses : s.run = .error → s.snkClosed = true
  /-- The traversal stack is empty between commands (R32 (b)). -/
  callsDone : s.stack = []
  /-- The priority structure is empty between commands (R30). -/
  queueEmpty : s.inPq = 0#513
  /-- `src_pos` does not exceed `SRC_BITS` (R60, R64). -/
  inSource : s.srcPos ≤ s.srcEnd
  /-- `snk_bytes` is not defined before close (R66). -/
  openBytes : s.snkClosed = false → s.snkBytes = none
  /-- A closed sink holds whole bytes, and `snk_bytes` is their packing (R68). -/
  closedBytes : s.snkClosed = true → s.snkBits.length % 8 = 0 ∧ s.snkBytes = some (packBytes s.snkBits)

/-- The tables that the flags call valid hold what they must (R23, R34). -/
structure TableInv (s : State) : Prop where
  /-- A valid frequency table has the sentinel's count 1 (R122). -/
  sentinel : s.freqValid = true → s.freq[Config.eofSymbol] = 1
  /-- A valid code table is that of a built tree (R23, R150). -/
  codesBuilt : s.codeValid = true → s.treeState = .built
  /-- A valid tree is a tree (R34), and a valid code table holds its codes. -/
  tree : s.treeState ≠ .none → ∃ t, HoldsTree s t ∧ (s.treeState = .built → BuiltNumbering s t) ∧
    (s.treeState = .parsed → ParsedNumbering s t) ∧ (s.codeValid = true → CodesOf s t.shape)

/-- The words of R101 that are commands. -/
def commandWords : List Byte :=
  [0x01#8, 0x02#8, 0x03#8, 0x04#8, 0x05#8, 0x06#8, 0x07#8, 0x08#8, 0x09#8, 0x0A#8, 0x0B#8, 0x0C#8, 0x0D#8, 0x0F#8]

/-- The reasons of class `FormatError` (R250). -/
def Reason.isFormatError : Reason → Bool
  | .badMagic | .hdrTruncated | .payloadTruncated | .badSymbol | .degenerateTree | .treeTooLarge => true
  | .noError | .noCode | .seqError | .illegalCmd => false

end Sys2Proof.Machine
end

