-- ==== Sys2Proof/Certificates/Slice0/Obligations.lean ====
section
/-!
DEFINITION. The statements for the provers, made from the numbered rules of spec/. Each docstring names the rule. A statement
never rests on the value of a free value (logs 8 to 10): where one is written, the statement says only that the field is what
the new state holds.
-/

open Sys2Proof Sys2Proof.Machine

/-! ### Encodings -/

/-- R100, R91, R92: decoding what is encoded gives the instruction back, whatever bits follow; in particular a header
record tells its own length (R105). -/
def Obligations.DecodeOfEncode : Prop :=
  ∀ (i : Instr) (rest : List Bool), decode i.format (encode i ++ rest) = .ok (i, rest)

/-- The other direction: bits that decode to an instruction are its encoding and the bits after it, so every word has one
meaning (R101, R102). -/
def Obligations.DecodedBitsAreTheEncoding : Prop :=
  ∀ (f : Format) (l rest : List Bool) (i : Instr),
    decode f l = .ok (i, rest) → l = encode i ++ rest ∧ i.format = f

/-- R102: a word is a command exactly when R101 lists it. -/
def Obligations.OnlyListedWordsAreCommands : Prop :=
  ∀ w : Byte, (∃ i, decodeCmd w = .ok i) ↔ w ∈ commandWords

/-- R101, R92, R91: the fourteen command words and the command each selects, an internal record, the leaf record of 66, and a
magic field. -/
def Obligations.SpecWordsDecode : Prop :=
  decodeCmd 0x01#8 = .ok .fcount ∧ decodeCmd 0x02#8 = .ok .tbuild ∧ decodeCmd 0x03#8 = .ok .cgen ∧
    decodeCmd 0x04#8 = .ok .wmagic ∧ decodeCmd 0x05#8 = .ok .whdr ∧ decodeCmd 0x06#8 = .ok .rewind ∧
    decodeCmd 0x07#8 = .ok .encode ∧ decodeCmd 0x08#8 = .ok .close ∧ decodeCmd 0x09#8 = .ok .rmagic ∧
    decodeCmd 0x0A#8 = .ok .rhdr ∧ decodeCmd 0x0B#8 = .ok .decode ∧ decodeCmd 0x0C#8 = .ok .compress ∧
    decodeCmd 0x0D#8 = .ok .decompress ∧ decodeCmd 0x0F#8 = .ok .sreset ∧
    decode .header [false] = .ok (.hdrInternal, []) ∧
    decode .header [true, false, false, true, false, false, false, false, true, false] = .ok (.hdrLeaf 66#9, []) ∧
    decode .stream32
        [true, true, true, true, true, false, true, false, true, true, false, false, true, true, true, false,
          true, false, false, false, false, false, true, false, false, false, false, false, false, false, false, true] =
      .ok (.magicWord 0xFACE8201#32, [])

/-- R105: a header tells where it ends and which tree it holds, so no header begins with another one. R94: a header of n leaves
has 11 n − 1 bits, never fewer than 10, and at most 2826 when no more than 257 leaves are in it. -/
def Obligations.HeadersParseInOneWay : Prop :=
  (∀ (t u : Shape) (a b : List Bool), t.ser ++ a = u.ser ++ b → t = u ∧ a = b) ∧
    ∀ t : Shape, t.ser.length = 11 * t.leaves - 1 ∧ 10 ≤ t.ser.length ∧ (t.leaves ≤ 257 → t.ser.length ≤ 2826)

/-! ### Steps -/

/-- A step with a pending write to `CMD` takes the word off the host's list and runs the command it decodes to (R24, R101;
that the host's words are a list is the model's choice, log 1). -/
def Obligations.StepRunsTheCommand : Prop :=
  ∀ (s : State) (w : Byte) (rest : List Byte) (i : Instr),
    s.cmds = w :: rest → decodeCmd w = .ok i → step s = exec i { s with cmds := rest }

/-- A step while a unit reads the stream, with no write pending, runs the field that the decoder finds at `src_pos` and moves
past its bits (R91, R92; that a field is a step is the model's choice, log 5). -/
def Obligations.StepRunsTheStreamField : Prop :=
  ∀ (s : State) (r : Reader) (i : Instr) (rest : List Bool),
    s.run = .busy r → s.cmds = [] → s.nodeCount.toNat ≠ Config.nodeCap →
      decode (match r with | .magic => .stream32 | .header => .header) (s.srcBits.drop s.srcPos) = .ok (i, rest) →
        step s = exec i { s with srcPos := s.srcPos + (encode i).length } ∧
          s.srcBits.drop (s.srcPos + (encode i).length) = rest

/-- A word that R101 does not list raises `ILLEGAL_CMD` in `IDLE`, before any table, flag or stream changes (R102, R255); in
`ERROR` and while `BUSY` it changes nothing (R258, R24; log 19, inferred). That a word is taken off the host's list is the
model's choice (log 1). -/
def Obligations.IllegalWordsRaise : Prop :=
  ∀ (s : State) (w : Byte) (rest : List Byte), s.cmds = w :: rest → w ∉ commandWords →
    (s.run = .idle → step s = .next (errorEntry .illegalCmd { s with cmds := rest })) ∧
      (s.run ≠ .idle → step s = .next { s with cmds := rest })

/-- With no write pending a machine that is not reading waits: no code runs at reset (R290). -/
def Obligations.IdleMachineWaits : Prop :=
  ∀ s : State, s.cmds = [] → (∀ r, s.run ≠ .busy r) → step s = .next s

/-- In `ERROR` every command but `SRESET` changes nothing; `SRESET` gives the reset state, and hardware reset does the same
(R258). A refused word is taken off the host's list and changes nothing else (logs 1 and 19), and a field of the stream that no
unit reads has no effect (log 6, inferred). -/
def Obligations.ErrorIsSticky : Prop :=
  AtReset State.reset ∧ ∀ s : State, s.run = .error →
    (∀ i : Instr, i ≠ .sreset → exec i s = .next s) ∧
      (∀ (w : Byte) (rest : List Byte), s.cmds = w :: rest → w ≠ 0x0F#8 → step s = .next { s with cmds := rest }) ∧
      ∃ u, exec .sreset s = .next u ∧ AtReset u

/-- A write to `CMD` while a command runs is ignored, whatever the word (R24); the word is taken off the host's list (logs 1 and
19). -/
def Obligations.BusyIgnoresCommandWrites : Prop :=
  ∀ (s : State) (r : Reader) (w : Byte) (rest : List Byte),
    s.run = .busy r → s.cmds = w :: rest → step s = .next { s with cmds := rest }

/-! ### Reset, status words, error entry -/

/-- R290: reset and `SRESET` give the values of R33 that the spec states, and the machine then waits in `IDLE` for the first
command. -/
def Obligations.ResetAndSresetState : Prop :=
  AtReset State.reset ∧ (∀ s : State, s.run = .idle ∨ s.run = .error → ∃ u, exec .sreset s = .next u ∧ AtReset u) ∧
    ∀ s : State, AtReset s → s.cmds = [] → step s = .next s

/-- R232: `SRESET` in `IDLE` and in `ERROR`. The zeros in the tables, and that the source stays bound when the host binds no
other, are the model's choice (logs 3 and 7). -/
def Obligations.SresetResult : Prop :=
  ∀ s : State, s.run = .idle ∨ s.run = .error →
    exec .sreset s =
      .next
        { State.reset with
          cfg := s.cfg
          cmds := s.cmds
          src := s.binds.head?.getD s.src
          binds := s.binds.tail
          freeTick := s.freeTick }

/-- The fields of `STATUS` and `ERR`, bit by bit, with every code of R23, R25 and R250. -/
def Obligations.StatusAndErrLayout : Prop :=
  ∀ s : State,
    ((s.run = .idle → s.status.extractLsb' 0 2 = 0#2) ∧ ((∃ r, s.run = .busy r) → s.status.extractLsb' 0 2 = 1#2) ∧
      (s.run = .error → s.status.extractLsb' 0 2 = 2#2)) ∧
    s.status.getLsbD 2 = s.freqValid ∧
    ((s.treeState = .none → s.status.extractLsb' 3 2 = 0#2) ∧ (s.treeState = .built → s.status.extractLsb' 3 2 = 1#2) ∧
      (s.treeState = .parsed → s.status.extractLsb' 3 2 = 2#2)) ∧
    s.status.getLsbD 5 = s.codeValid ∧ s.status.getLsbD 6 = s.snkClosed ∧ s.status.getLsbD 7 = false ∧
    s.errWord.extractLsb' 4 4 = 0#4 ∧
    ((s.err = .noError → s.errWord.extractLsb' 0 4 = 0#4) ∧ (s.err = .badMagic → s.errWord.extractLsb' 0 4 = 1#4) ∧
      (s.err = .hdrTruncated → s.errWord.extractLsb' 0 4 = 2#4) ∧
      (s.err = .payloadTruncated → s.errWord.extractLsb' 0 4 = 3#4) ∧
      (s.err = .badSymbol → s.errWord.extractLsb' 0 4 = 4#4) ∧
      (s.err = .degenerateTree → s.errWord.extractLsb' 0 4 = 5#4) ∧
      (s.err = .treeTooLarge → s.errWord.extractLsb' 0 4 = 6#4) ∧ (s.err = .noCode → s.errWord.extractLsb' 0 4 = 7#4) ∧
      (s.err = .seqError → s.errWord.extractLsb' 0 4 = 8#4) ∧ (s.err = .illegalCmd → s.errWord.extractLsb' 0 4 = 9#4))

/-- R257: the error entry records the reason, enters `ERROR`, closes the sink if it is open, and keeps everything else. That
the traversal stack is emptied is read from R32 (b) (log 18). -/
def Obligations.ErrorEntryEffect : Prop :=
  ∀ (why : Reason) (s : State),
    (s.snkClosed = true → errorEntry why s = { s with err := why, run := .error, stack := [] }) ∧
      (s.snkClosed = false →
        ∃ (pad : List Bool) (bytes : List Byte),
          errorEntry why s =
              { s with
                err := why, run := .error, stack := [], snkBits := s.snkBits ++ pad, snkBytes := some bytes
                snkClosed := true } ∧
            bytes.flatMap byteBits = s.snkBits ++ pad ∧ pad.length < 8 ∧ ∀ b ∈ pad, b = false)

/-- R256: a command whose precondition on a flag fails raises `SEQ_ERROR` before anything else has changed. -/
def Obligations.PreconditionFailuresRaise : Prop :=
  ∀ s : State, s.run = .idle →
    (s.freqValid = false → exec .tbuild s = .next (errorEntry .seqError s)) ∧
      (s.treeState ≠ .built → exec .cgen s = .next (errorEntry .seqError s)) ∧
      (s.treeState = .none ∨ s.snkClosed = true → exec .whdr s = .next (errorEntry .seqError s)) ∧
      (s.treeState = .none ∨ s.snkClosed = true → exec .decode s = .next (errorEntry .seqError s)) ∧
      (s.codeValid = false ∨ s.snkClosed = true → exec .encode s = .next (errorEntry .seqError s)) ∧
      (s.snkClosed = true → exec .wmagic s = .next (errorEntry .seqError s)) ∧
      (s.snkClosed = true → exec .close s = .next (errorEntry .seqError s))

/-! ### Streams -/

/-- R61, R62, R63: a read returns the next `w` bits, the first one most significant, where stream bit `k` is bit `7 − (k mod 8)`
of byte `k div 8`; with fewer left it returns `EOS` and moves to the end. -/
def Obligations.ReadBitsResult : Prop :=
  ∀ (s : State) (w : Nat),
    (s.srcPos + w ≤ 8 * s.src.length →
        ∃ v : BitVec w, readBits w s = (some v, { s with srcPos := s.srcPos + w }) ∧
          ∀ j < w, v.getLsbD (w - 1 - j) =
            (s.src.getD ((s.srcPos + j) / 8) 0#8).getLsbD (7 - (s.srcPos + j) % 8)) ∧
      (8 * s.src.length < s.srcPos + w → readBits w s = (none, { s with srcPos := 8 * s.src.length }))

/-- R64: after an `EOS` every later read answers `EOS` and changes nothing, and no read leaves the source. -/
def Obligations.EndOfStreamIsSticky : Prop :=
  ∀ (s u : State) (w : Nat), readBits w s = (none, u) →
    u.srcPos = 8 * s.src.length ∧ (∀ w', 1 ≤ w' → readBits w' u = (none, u)) ∧
      ∀ (v : State) (w' : Nat), v.srcPos ≤ 8 * v.src.length → (readBits w' v).2.srcPos ≤ 8 * v.src.length

/-- R67: a write appends `w` bits, the most significant first. -/
def Obligations.WriteBitsResult : Prop :=
  ∀ (s : State) (w v : Nat),
    ∃ l : List Bool, s.writeBits w v = { s with snkBits := s.snkBits ++ l } ∧ l.length = w ∧
      (∀ j < w, l.getD j false = v.testBit (w - 1 - j)) ∧ (v < 2 ^ w → val l = v)

/-! ### The commands -/

/-- R120, R121, R122: `FCOUNT` counts the bytes from `src_pos` on, gives the sentinel the count 1, leaves the source at its end,
and invalidates the tree and the code table; the sum of the counts is the number of bytes read plus 1, and 1 to 257 symbols
are present. The source must not be longer than `MAX_LEN` (R298). -/
def Obligations.FcountResult : Prop :=
  decodeCmd 0x01#8 = .ok .fcount ∧ ∀ s : State, s.run = .idle → s.src.length ≤ s.cfg.maxLen →
    ∃ freq : Vector Nat 257,
      exec .fcount s =
          .next
            { s with
              freq := freq, freqValid := true, treeState := .none, codeValid := false, srcPos := 8 * s.src.length } ∧
        freq[Config.eofSymbol] = 1 ∧ (∀ b : Byte, freq[dataSymbol b] = s.bytesLeft.count b) ∧
        freq.toList.sum = s.bytesLeft.length + 1 ∧ 1 ≤ (leafList freq).length ∧ (leafList freq).length ≤ 257 ∧
        (s.srcPos = 0 → s.bytesLeft = s.src)

/-- R298: a count pass over a source longer than `MAX_LEN` has no meaning, so the model refuses it (log 13). -/
def Obligations.OverlongSourceIsRefused : Prop :=
  ∀ s : State, s.run = .idle → s.cfg.maxLen < s.src.length →
    exec .fcount s = .refused .inputTooLong ∧ exec .compress s = .refused .inputTooLong

/-- R133, R136: `extract_min()` removes the member with the least key, lower weight first and lower index first among equal
weights, and nothing else. -/
def Obligations.ExtractMinTakesTheLeast : Prop :=
  ∀ s : State, s.inPq ≠ 0#513 →
    ∃ i : Nat, extractMin s = some (i, { s with inPq := s.inPq &&& ~~~(BitVec.twoPow 513 i) }) ∧ i < 513 ∧
      s.inPq.getLsbD i = true ∧
      ∀ j : Nat, s.inPq.getLsbD j = true → j ≠ i →
        (s.entry i).weight < (s.entry j).weight ∨ ((s.entry i).weight = (s.entry j).weight ∧ i < j)

/-- R130, R131, R132, R134, R135, R137: `TBUILD` makes one leaf per present symbol in ascending order, then the merges; node
memory then holds a tree with the numbering of R34 (e), whose root weighs the sum of all counts; the frequency table is
discarded. -/
def Obligations.TbuildResult : Prop :=
  ∀ s : State, s.run = .idle → s.freqValid = true → 0 < s.freq[Config.eofSymbol] → s.inPq = 0#513 →
    ∃ (u : State) (t : ITree), exec .tbuild s = .next u ∧
      u =
        { s with
          nodes := u.nodes, root := u.root, nodeCount := u.nodeCount, freeTick := u.freeTick
          freqValid := false, treeState := .built, codeValid := false } ∧
      HoldsTree u t ∧ BuiltNumbering u t ∧ t.shape.leaves = (leafList s.freq).length ∧
      (∀ (i : Nat) (e : Nat × Shape), (leafList s.freq)[i]? = some e →
        e = ((u.entry i).weight, .leaf (u.entry i).sym)) ∧
      (u.entry u.root.toNat).weight = s.freq.toList.sum

/-- R132, R133, R136: the tree is the one of the textbook greedy merge with first-in first-out tie-break on the list of
leaves. -/
def Obligations.TbuildIsTheGreedyMerge : Prop :=
  ∀ s : State, s.run = .idle → s.freqValid = true → 0 < s.freq[Config.eofSymbol] → s.inPq = 0#513 →
    ∃ (u : State) (t : ITree), exec .tbuild s = .next u ∧ HoldsTree u t ∧ t.shape = huffmanTree s.freq

/-- R137 (d): the weights of the internal nodes never decrease along their indices. -/
def Obligations.MergeWeightsNeverDecrease : Prop :=
  ∀ s u : State, s.run = .idle → s.freqValid = true → 0 < s.freq[Config.eofSymbol] → s.inPq = 0#513 →
    exec .tbuild s = .next u →
      ∀ k : Nat, (leafList s.freq).length ≤ k → k + 1 < u.nodeCount.toNat →
        (u.entry k).weight ≤ (u.entry (k + 1)).weight

/-- R134 (b), (c): the tree that `TBUILD` leaves for no data byte, one leaf, and for one distinct data byte, two leaves whose
order depends on how often the byte occurs. -/
def Obligations.SmallTreeShapes : Prop :=
  ∀ s : State, s.run = .idle → s.freqValid = true → s.freq[Config.eofSymbol] = 1 → s.inPq = 0#513 →
    ∃ (u : State) (t : ITree), exec .tbuild s = .next u ∧ HoldsTree u t ∧
      ((∀ b : Byte, s.freq[dataSymbol b] = 0) → t.shape = .leaf 256#9 ∧ u.root = 0#10 ∧ u.nodeCount = 1#10) ∧
      ∀ d : Byte, 0 < s.freq[dataSymbol d] → (∀ b : Byte, b ≠ d → s.freq[dataSymbol b] = 0) →
        u.root = 2#10 ∧ u.nodeCount = 3#10 ∧
          t.shape =
            if s.freq[dataSymbol d] = 1 then .node (.leaf (d.setWidth 9)) (.leaf 256#9)
            else .node (.leaf 256#9) (.leaf (d.setWidth 9))

/-- R150, R151: `CGEN` on a built tree gives every symbol of the tree its root-to-leaf path as code, and no other symbol a
code; nothing but the code table and `code_valid` changes. The lengths and values of symbols without a code are free values
(log 10). -/
def Obligations.CgenResult : Prop :=
  ∀ (s : State) (t : ITree), s.run = .idle → s.treeState = .built → HoldsTree s t → t.shape.syms.Nodup →
    ∃ u : State, exec .cgen s = .next u ∧
      u =
        { s with
          codeValid := true, codeHas := u.codeHas, codeLen := u.codeLen, codeVal := u.codeVal
          freeTick := u.freeTick } ∧
      CodesOf u t.shape

/-- R152: after `CGEN` no code begins with another symbol's code, and no two symbols have the same code. -/
def Obligations.CodesArePrefixFree : Prop :=
  ∀ (s u : State) (t : ITree), s.run = .idle → s.treeState = .built → HoldsTree s t → t.shape.syms.Nodup →
    exec .cgen s = .next u →
      ∀ y z : Symbol, u.codeHas[y] = true → u.codeHas[z] = true → y ≠ z → ¬ u.codeOf y <+: u.codeOf z

/-- R153, R154: `WHDR` appends exactly the serialisation of the tree's shape, 11 n − 1 bits, and changes nothing else. -/
def Obligations.WhdrResult : Prop :=
  ∀ (s : State) (t : ITree), s.run = .idle → s.treeState ≠ .none → s.snkClosed = false → HoldsTree s t →
    exec .whdr s = .next { s with snkBits := s.snkBits ++ t.shape.ser } ∧
      t.shape.ser.length = 11 * t.shape.leaves - 1

/-- R170: `RMAGIC` passes on the 32 bits of `MAGIC`, and raises `BAD_MAGIC` on any other 32 bits and on fewer. -/
def Obligations.RmagicResult : Prop :=
  decodeCmd 0x09#8 = .ok .rmagic ∧ ∀ s : State, s.run = .idle →
    (∀ (m : BitVec 32) (rest : List Bool), s.srcBits.drop s.srcPos = bits 32 m.toNat ++ rest →
      exec .rmagic s =
        if m = s.cfg.magic then .next { s with srcPos := s.srcPos + 32 }
        else .next (errorEntry .badMagic { s with srcPos := s.srcPos + 32 })) ∧
      ((s.srcBits.drop s.srcPos).length < 32 →
        exec .rmagic s = .next (errorEntry .badMagic { s with srcPos := 8 * s.src.length }))

/-- R171, R173: `RHDR` on the serialisation of a tree that node memory can hold reads exactly its bits, and node memory then
holds that shape, numbered in preorder from 0; entries beyond it keep their contents. -/
def Obligations.RhdrReadsTheTree : Prop :=
  ∀ (s : State) (t : Shape) (rest : List Bool), s.run = .idle → t.leaves ≤ 257 → t.symbolsOk →
    s.srcBits.drop s.srcPos = t.ser ++ rest →
      ∃ (u : State) (it : ITree), exec .rhdr s = .next u ∧
        u =
          { s with
            srcPos := s.srcPos + t.ser.length, treeState := .parsed, codeValid := false, root := 0#10
            nodeCount := BitVec.ofNat 10 (2 * t.leaves - 1), nodes := u.nodes, freeTick := u.freeTick, stack := [] } ∧
        HoldsTree u it ∧ it.shape = t ∧ ParsedNumbering u it ∧
        ∀ k, 2 * t.leaves - 1 ≤ k → u.entry k = s.entry k

/-- R171, R252: `RHDR` on a source that ends before a complete header raises `HDR_TRUNCATED`. The source holds the first `k`
records of a header, none of them reserved, and then `part`, which is the record after them cut short: nothing of it, or a
discriminator "1" and fewer than nine bits of symbol. Every such source is meant: the tree `t` may have any size and only the
`k` records read, at most 512, must be those of symbols. The source is at its end and no tree is valid; a leaf cut short has
been numbered. -/
def Obligations.RhdrTruncated : Prop :=
  ∀ (s : State) (t : Shape) (k : Nat) (i : Instr) (part : List Bool), s.run = .idle → k < 513 →
    t.records[k]? = some i → RecordsOk (t.records.take k) → part <+: encode i → part ≠ encode i →
      s.srcBits.drop s.srcPos = (t.records.take k).flatMap encode ++ part →
        ∃ v : State, exec .rhdr s = .next (errorEntry .hdrTruncated v) ∧
          v =
            { s with
              srcPos := 8 * s.src.length, treeState := .none, codeValid := false
              nodeCount := BitVec.ofNat 10 (if part = [] then k else k + 1)
              nodes := v.nodes, freeTick := v.freeTick, stack := v.stack }

/-- R98, R171, R254: `RHDR` raises `BAD_SYMBOL` when it has read the first leaf record with a reserved symbol, the record after
the first `k` of a header, whatever follows it and however large the tree is; the position is just after that record, its node
has been numbered, and no tree is valid. -/
def Obligations.RhdrBadSymbol : Prop :=
  ∀ (s : State) (t : Shape) (k : Nat) (y : SymField) (rest : List Bool), s.run = .idle → k < 513 →
    t.records[k]? = some (.hdrLeaf y) → 256 < y.toNat → RecordsOk (t.records.take k) →
      s.srcBits.drop s.srcPos = (t.records.take k).flatMap encode ++ encode (.hdrLeaf y) ++ rest →
        ∃ v : State, exec .rhdr s = .next (errorEntry .badSymbol v) ∧
          v =
            { s with
              srcPos := s.srcPos + ((t.records.take k).flatMap encode).length + 10
              treeState := .none, codeValid := false, nodeCount := BitVec.ofNat 10 (k + 1)
              nodes := v.nodes, freeTick := v.freeTick, stack := v.stack }

/-- R172, R254: `RHDR` raises `TREE_TOO_LARGE` when it has read 513 records and the header is not complete, without reading
further, whatever follows; so it does after 513 zero bits. No tree is valid. -/
def Obligations.RhdrTreeTooLarge : Prop :=
  ∀ (s : State) (rest : List Bool), s.run = .idle →
    (∀ t : Shape, 513 < t.records.length → RecordsOk (t.records.take 513) →
        s.srcBits.drop s.srcPos = (t.records.take 513).flatMap encode ++ rest →
          ∃ v : State, exec .rhdr s = .next (errorEntry .treeTooLarge v) ∧
            v =
              { s with
                srcPos := s.srcPos + ((t.records.take 513).flatMap encode).length
                treeState := .none, codeValid := false, nodeCount := 513#10
                nodes := v.nodes, freeTick := v.freeTick, stack := v.stack }) ∧
      (s.srcBits.drop s.srcPos = List.replicate 513 false ++ rest →
        ∃ v : State, exec .rhdr s = .next (errorEntry .treeTooLarge v) ∧
          v =
            { s with
              srcPos := s.srcPos + 513, treeState := .none, codeValid := false, nodeCount := 513#10
              nodes := v.nodes, freeTick := v.freeTick, stack := v.stack })

/-- R190: `WMAGIC` appends the 32 bits of `MAGIC` and changes nothing else; on a closed sink it raises `SEQ_ERROR`. -/
def Obligations.WmagicResult : Prop :=
  decodeCmd 0x04#8 = .ok .wmagic ∧
    ∀ s : State, s.run = .idle →
      (s.snkClosed = false →
        exec .wmagic s = .next { s with snkBits := s.snkBits ++ bits 32 s.cfg.magic.toNat }) ∧
        (s.snkClosed = true → exec .wmagic s = .next (errorEntry .seqError s))

/-- R191: `REWIND` sets `src_pos` to 0 and changes nothing else. -/
def Obligations.RewindResult : Prop :=
  decodeCmd 0x06#8 = .ok .rewind ∧ ∀ s : State, s.run = .idle → exec .rewind s = .next { s with srcPos := 0 }

/-- R192, R194: `ENCODE` with a code for every byte left appends their codes in order and then the sentinel's code, leaves the
source at its end and discards the code table; nothing else changes. -/
def Obligations.EncodeResult : Prop :=
  ∀ s : State, s.run = .idle → s.codeValid = true → s.snkClosed = false →
    (∀ b ∈ s.bytesLeft, s.codeHas[dataSymbol b] = true) →
      exec .encode s =
        .next
          { s with
            snkBits :=
              s.snkBits ++ s.bytesLeft.flatMap (fun b => s.codeOf (dataSymbol b)) ++ s.codeOf Config.eofSymbol
            srcPos := 8 * s.src.length
            codeValid := false }

/-- R192, R262, R263: `ENCODE` raises `NO_CODE` at the first byte without a code; the codes already written stay written. -/
def Obligations.EncodeNoCode : Prop :=
  ∀ (s : State) (pre post : List Byte) (b : Byte), s.run = .idle → s.codeValid = true → s.snkClosed = false →
    s.bytesLeft = pre ++ b :: post → (∀ c ∈ pre, s.codeHas[dataSymbol c] = true) → s.codeHas[dataSymbol b] = false →
      exec .encode s =
        .next
          (errorEntry .noCode
            { s with
              snkBits := s.snkBits ++ pre.flatMap (fun c => s.codeOf (dataSymbol c))
              srcPos := s.srcPos + 8 * (pre.length + 1) })

/-- R193, R68: `CLOSE` appends 0 to 7 zero bits to reach a byte boundary, packs the bits into bytes with the first bit most
significant, and marks the sink closed; on a closed sink it raises `SEQ_ERROR`. -/
def Obligations.CloseResult : Prop :=
  decodeCmd 0x08#8 = .ok .close ∧
    ∀ s : State, s.run = .idle →
      (s.snkClosed = false →
        ∃ bytes : List Byte,
          exec .close s =
              .next
                { s with
                  snkBits := s.snkBits ++ List.replicate ((8 - s.snkBits.length % 8) % 8) false
                  snkBytes := some bytes
                  snkClosed := true } ∧
            8 * bytes.length = s.snkBits.length + (8 - s.snkBits.length % 8) % 8 ∧
            ∀ j < bytes.length, ∀ k < 8,
              (bytes.getD j 0#8).getLsbD (7 - k) = s.snkBits.getD (8 * j + k) false) ∧
        (s.snkClosed = true → exec .close s = .next (errorEntry .seqError s))

/-- R210, R212: `DECODE` on the codes of data symbols followed by the sentinel's code writes the data bytes, stops after the
sentinel's code, and changes nothing else but `cur`, whose value after the command no rule gives (log 16). -/
def Obligations.DecodeResult : Prop :=
  ∀ (s : State) (t : ITree) (cs : List (SymField × List Bool)) (e rest : List Bool), s.run = .idle →
    s.treeState ≠ .none → s.snkClosed = false → HoldsTree s t → 2 ≤ t.shape.leaves →
      (∀ c ∈ cs, c ∈ t.shape.paths ∧ c.1 ≠ 256#9) → (256#9, e) ∈ t.shape.paths →
        s.srcBits.drop s.srcPos = cs.flatMap Prod.snd ++ e ++ rest →
          ∃ (cur : NodeIdx) (bytes : List Byte),
            exec .decode s =
                .next
                  { s with
                    srcPos := s.srcPos + (cs.flatMap Prod.snd ++ e).length
                    snkBits := s.snkBits ++ bytes.flatMap byteBits
                    cur := cur } ∧
              bytes.map BitVec.toNat = cs.map fun c => c.1.toNat

/-- R210, R253, R263: `DECODE` raises `PAYLOAD_TRUNCATED` when the source ends before a sentinel's code, between codes or inside
one; the bytes decoded before it stay written and the source is at its end. -/
def Obligations.DecodeTruncated : Prop :=
  ∀ (s : State) (t : ITree) (cs : List (SymField × List Bool)) (q : List Bool), s.run = .idle →
    s.treeState ≠ .none → s.snkClosed = false → HoldsTree s t → 2 ≤ t.shape.leaves →
      (∀ c ∈ cs, c ∈ t.shape.paths ∧ c.1 ≠ 256#9) → (∃ c ∈ t.shape.paths, q <+: c.2 ∧ q ≠ c.2) →
        s.srcBits.drop s.srcPos = cs.flatMap Prod.snd ++ q →
          ∃ (cur : NodeIdx) (bytes : List Byte),
            exec .decode s =
                .next
                  (errorEntry .payloadTruncated
                    { s with
                      srcPos := 8 * s.src.length
                      snkBits := s.snkBits ++ bytes.flatMap byteBits
                      cur := cur }) ∧
              bytes.map BitVec.toNat = cs.map fun c => c.1.toNat

/-- R211: `DECODE` on a one-leaf tree reads and writes nothing: it succeeds on the sentinel and raises `DEGENERATE_TREE` on any
other symbol. -/
def Obligations.DecodeSingleLeaf : Prop :=
  ∀ (s : State) (i : NodeIdx) (v : SymField), s.run = .idle → s.treeState ≠ .none → s.snkClosed = false →
    HoldsTree s (.leaf i v) →
      exec .decode s = if v = 256#9 then .next s else .next (errorEntry .degenerateTree s)

/-! ### The macro commands -/

/-- R104 (with R230, R231): `COMPRESS` is its eight steps and `DECOMPRESS` its four, each run as if issued alone and followed, on
success, by `tree_state <- NONE`; a macro command ends at the first step that raises. -/
def Obligations.MacroCommandsAreTheirSteps : Prop :=
  ∀ s : State, s.run = .idle →
    exec .compress s = clearTree (runSeq [.fcount, .tbuild, .cgen, .wmagic, .whdr, .rewind, .encode, .close] s) ∧
      exec .decompress s = clearTree (runSeq [.rmagic, .rhdr, .decode, .close] s)

/-- R230, R233: `COMPRESS` on an open sink, from the start of the source, ends without error and appends the compressed stream
of the source, padded to whole bytes; the flags, the position and the state are those of R230. -/
def Obligations.CompressResult : Prop :=
  ∀ s : State, s.run = .idle → s.srcPos = 0 → s.snkClosed = false → s.snkBits = [] → s.inPq = 0#513 →
    s.src.length ≤ s.cfg.maxLen →
      ∃ (u : State) (pad : List Bool) (bytes : List Byte), exec .compress s = .next u ∧
        u.run = .idle ∧ u.freqValid = false ∧ u.treeState = .none ∧ u.codeValid = false ∧ u.snkClosed = true ∧
        u.srcPos = 8 * s.src.length ∧ u.snkBits = compressedBits s.cfg.magic s.src ++ pad ∧
        u.snkBytes = some bytes ∧ bytes.flatMap byteBits = u.snkBits ∧ pad.length < 8 ∧ (∀ b ∈ pad, b = false) ∧
        u =
          { s with
            freqValid := false, treeState := .none, codeValid := false, snkClosed := true, srcPos := u.srcPos
            snkBits := u.snkBits, snkBytes := u.snkBytes, freq := u.freq, nodes := u.nodes, root := u.root
            nodeCount := u.nodeCount, codeHas := u.codeHas, codeLen := u.codeLen, codeVal := u.codeVal
            freeTick := u.freeTick }

/-- R231, R171, R212: `DECOMPRESS` on the magic number, a header and codes ended by the sentinel's code ends without error with the
data bytes in a closed sink; it does not matter which encoder made the header (R302) or what follows (R97). -/
def Obligations.DecompressResult : Prop :=
  ∀ (s : State) (t : Shape) (cs : List (SymField × List Bool)) (e rest : List Bool), s.run = .idle →
    s.snkClosed = false → s.snkBits = [] → 2 ≤ t.leaves → t.leaves ≤ 257 → t.symbolsOk →
      (∀ c ∈ cs, c ∈ t.paths ∧ c.1 ≠ 256#9) → (256#9, e) ∈ t.paths →
        s.srcBits.drop s.srcPos = bits 32 s.cfg.magic.toNat ++ t.ser ++ cs.flatMap Prod.snd ++ e ++ rest →
          ∃ (u : State) (bytes : List Byte), exec .decompress s = .next u ∧
            u.run = .idle ∧ u.treeState = .none ∧ u.codeValid = false ∧ u.snkClosed = true ∧
            u.snkBytes = some bytes ∧ bytes.map BitVec.toNat = (cs.map fun c => c.1.toNat) ∧
            s.srcBits.drop u.srcPos = rest ∧
            u =
              { s with
                treeState := .none, codeValid := false, snkClosed := true, srcPos := u.srcPos, snkBits := u.snkBits
                snkBytes := u.snkBytes, nodes := u.nodes, root := u.root, nodeCount := u.nodeCount, cur := u.cur
                stack := [], freeTick := u.freeTick }

/-- R234: the round trip. For every input that the counts can hold, a run of `COMPRESS` at launch gives bytes from which a run
of `DECOMPRESS` at launch gives the input back, bit for bit. -/
def Obligations.RoundTrip : Prop :=
  ∀ (cfg : Config) (input : List Byte), input.length ≤ cfg.maxLen →
    ∃ (u v : State) (packed : List Byte), step (launch cfg input [0x0C#8]) = .next u ∧ u.snkBytes = some packed ∧
      step (launch cfg packed [0x0D#8]) = .next v ∧ v.run = .idle ∧ v.snkBytes = some input

/-- R236: the empty input compresses to the magic number and the one-leaf header, 42 bits, and decompresses to nothing. -/
def Obligations.EmptyInput : Prop :=
  ∀ cfg : Config,
    ∃ (u v : State) (packed : List Byte), step (launch cfg [] [0x0C#8]) = .next u ∧ u.run = .idle ∧
      u.snkBytes = some packed ∧
      packed.flatMap byteBits =
        bits 32 cfg.magic.toNat ++ [true, true, false, false, false, false, false, false, false, false] ++
          List.replicate 6 false ∧
      step (launch cfg packed [0x0D#8]) = .next v ∧ v.run = .idle ∧ v.snkBytes = some [] ∧ v.srcPos = 42

/-! ### The fields of the stream -/

/-- R91, R170: the magic field reaching the magic check ends `RMAGIC` well when it is `MAGIC`, and with `BAD_MAGIC` when it is not
(that the field is an instruction is the model's choice, log 5). -/
def Obligations.MagicFieldResult : Prop :=
  ∀ (s : State) (m : BitVec 32), s.run = .busy .magic →
    exec (.magicWord m) s =
      if m = s.cfg.magic then .next { s with run := .idle } else .next (errorEntry .badMagic s)

/-- R92, R171, R172: an internal record reaching the header reader is numbered and waits for its children; as the 514th node it
raises `TREE_TOO_LARGE` (that the record is an instruction is the model's choice, log 5). -/
def Obligations.InternalRecordResult : Prop :=
  ∀ s : State, s.run = .busy .header →
    exec .hdrInternal s =
      if s.nodeCount = 513#10 then .next (errorEntry .treeTooLarge s)
      else .next { s with nodeCount := s.nodeCount + 1#10, stack := ⟨s.nodeCount, none⟩ :: s.stack }

/-- R98, R171, R254: a leaf record with a reserved symbol reaching the header reader is numbered and raises `BAD_SYMBOL`; as the
514th node it raises `TREE_TOO_LARGE` instead (that the record is an instruction is the model's choice, log 5). -/
def Obligations.ReservedLeafRecordRaises : Prop :=
  ∀ (s : State) (v : SymField), s.run = .busy .header → 256 < v.toNat →
    exec (.hdrLeaf v) s =
      if s.nodeCount = 513#10 then .next (errorEntry .treeTooLarge s)
      else .next (errorEntry .badSymbol { s with nodeCount := s.nodeCount + 1#10 })

/-- R92, R171: a leaf record reaching the header reader. It gets the next entry, with `NIL` children. It completes every innermost
waiting node that has its left child already (`chain`, innermost first, each with its left child): the node's right child is
the entry completed before it. The last entry completed is the root, and `RHDR` ends, when no node waits beyond; else it is the
left child of the next waiting node. The `sym` and the weights of these entries are free values (logs 8 and 9; that the record
is an instruction is the model's choice, log 5). -/
def Obligations.LeafRecordResult : Prop :=
  ∀ (s : State) (v : SymField) (chain : List (NodeIdx × NodeIdx)) (waiting : List Pending),
    s.run = .busy .header → v.toNat ≤ 256 → s.nodeCount.toNat < 513 →
      s.stack = chain.map (fun c => ⟨c.1, some c.2⟩) ++ waiting → (∀ c ∈ chain, c.1.toNat < 513) →
        (s.nodeCount :: chain.map Prod.fst).Nodup →
          ∃ u : State,
            ((u.entry s.nodeCount.toNat).leaf = true ∧ (u.entry s.nodeCount.toNat).sym = v ∧
              (u.entry s.nodeCount.toNat).left = 1023#10 ∧ (u.entry s.nodeCount.toNat).right = 1023#10) ∧
            (∀ m < chain.length, ∀ c, chain[m]? = some c →
              (u.entry c.1.toNat).leaf = false ∧ (u.entry c.1.toNat).left = c.2 ∧
                some (u.entry c.1.toNat).right = (s.nodeCount :: chain.map Prod.fst)[m]?) ∧
            (∀ k : NodeIdx, k ∉ s.nodeCount :: chain.map Prod.fst → u.entry k.toNat = s.entry k.toNat) ∧
            (waiting = [] → exec (.hdrLeaf v) s = .next u ∧
              u =
                { s with
                  nodeCount := s.nodeCount + 1#10, nodes := u.nodes, freeTick := u.freeTick, stack := []
                  root := (chain.map Prod.fst).getLastD s.nodeCount, treeState := .parsed, run := .idle }) ∧
            (∀ (j : NodeIdx) (rest : List Pending), waiting = ⟨j, none⟩ :: rest →
              exec (.hdrLeaf v) s = .next u ∧
                u =
                  { s with
                    nodeCount := s.nodeCount + 1#10, nodes := u.nodes, freeTick := u.freeTick
                    stack := ⟨j, some ((chain.map Prod.fst).getLastD s.nodeCount)⟩ :: rest })

/-- R171, R172, R235: `RHDR` ends in a next state from every idle state and on every source: it cannot hang and its stack cannot
overflow. And it is its records: a header read one record a step, from the opening lines of `RHDR`, ends within 514 steps in the
state in which the command ends (that a record is a step is the model's choice, log 5). -/
def Obligations.RhdrEndsAndIsItsRecords : Prop :=
  ∀ s : State, s.run = .idle →
    (∃ u, exec .rhdr s = .next u) ∧
      (s.cmds = [] →
        Host.Core.run Sys2Proof.core 514
            { s with
              run := .busy .header, treeState := .none, codeValid := false, nodeCount := 0#10, stack := [] } =
          exec .rhdr s)

/-! ### Rules of the whole machine -/

/-- At reset the control invariant holds. -/
def Obligations.ControlInvAtReset : Prop := ControlInv State.reset

/-- Every step keeps the control invariant: commands are atomic (R24, R303), `ERR.reason` is 0 outside `ERROR` (R26), an error has
closed the sink (R257), the traversal stack and the priority structure are empty between commands (R30, R32), `src_pos` stays
in the source (R60, R64), and a closed sink holds whole bytes (R68). -/
def Obligations.StepKeepsControlInv : Prop :=
  ∀ s u : State, ControlInv s → step s = .next u → ControlInv u

/-- At reset the table invariant holds. -/
def Obligations.TableInvAtReset : Prop := TableInv State.reset

/-- Every step keeps the table invariant: whenever a tree is valid node memory holds a tree as R34 says, and whenever the code
table is valid it holds the codes of a built tree (R23, R34, R150). -/
def Obligations.StepKeepsTableInv : Prop :=
  ∀ s u : State, ControlInv s → TableInv s → step s = .next u → TableInv u

/-- R235: no command hangs or stops the machine. In every state that meets the two invariants a step answers a next state, but
for a count pass over a source longer than `MAX_LEN` (R298). -/
def Obligations.EveryStepEnds : Prop :=
  ∀ s : State, ControlInv s → TableInv s →
    (∃ u, step s = .next u) ∨ (step s = .refused .inputTooLong ∧ s.cfg.maxLen < s.src.length)

/-- R35: no step changes the parameters, and none but `SRESET` the bound source. -/
def Obligations.ParametersNeverChange : Prop :=
  ∀ s u : State, step s = .next u →
    u.cfg = s.cfg ∧ (u.src = s.src ∨ ∃ rest, s.cmds = 0x0F#8 :: rest)

/-- R266: the compression commands and `COMPRESS` itself raise no `FormatError`; `FCOUNT` and `REWIND` raise nothing, and `RMAGIC` and `RHDR` no usage
error. -/
def Obligations.CompressionRaisesNoFormatError : Prop :=
  ∀ (s u : State) (i : Instr), s.run = .idle → exec i s = .next u → u.run = .error →
    (i ∈ [.fcount, .tbuild, .cgen, .wmagic, .whdr, .rewind, .encode, .close, .compress] →
        u.err.isFormatError = false) ∧
      i ≠ .fcount ∧ i ≠ .rewind ∧ (i = .rmagic ∨ i = .rhdr → u.err.isFormatError = true)
end

