-- ==== Sys2Proof/Laws/Bits.lean ====
section
/-!
SUPPORT. Bit strings (`00_scope.md` R6) and bytes (`20_memory.md` R61, R68): `bits` and `val` undo each other, and so do
packing bytes and listing their bits.
-/

namespace Sys2Proof

@[simp] theorem bits_length (w v : Nat) : (bits w v).length = w := by simp [bits]

@[simp] theorem bits_zero (v : Nat) : bits 0 v = [] := rfl

theorem bits_getElem (w v j : Nat) (h : j < (bits w v).length) : (bits w v)[j] = v.testBit (w - 1 - j) := by
  simp [bits]

/-- The first bit of a field is its most significant bit (R6). -/
theorem bits_succ (w v : Nat) : bits (w + 1) v = v.testBit w :: bits w v := by
  simp only [bits, List.range_succ_eq_map, List.map_cons, List.map_map]
  congr 1
  refine List.map_congr_left fun i _ => ?_
  simp only [Function.comp_apply]
  congr 1
  omega

theorem bits_mod (w v : Nat) : bits w (v % 2 ^ w) = bits w v := by
  refine List.ext_getElem (by simp) fun j h _ => ?_
  rw [bits_getElem, bits_getElem, Nat.testBit_mod_two_pow]
  simp only [bits_length] at h
  simp only [Bool.and_eq_right_iff_imp, decide_eq_true_eq]
  omega

@[simp] theorem val_nil : val [] = 0 := rfl

theorem val_foldl (s : List Bool) (a : Nat) :
    s.foldl (fun a b => 2 * a + b.toNat) a = a * 2 ^ s.length + val s := by
  induction s generalizing a with
  | nil => simp
  | cons b s ih =>
    simp only [List.foldl_cons, List.length_cons, val]
    rw [ih, ih (2 * 0 + b.toNat)]
    ring

theorem val_cons (b : Bool) (s : List Bool) : val (b :: s) = b.toNat * 2 ^ s.length + val s := by
  rw [val, List.foldl_cons, val_foldl]
  simp

theorem val_append (s t : List Bool) : val (s ++ t) = val s * 2 ^ t.length + val t := by
  rw [val, List.foldl_append, val_foldl, ← val]

theorem val_lt (s : List Bool) : val s < 2 ^ s.length := by
  induction s with
  | nil => simp
  | cons b s ih =>
    rw [val_cons, List.length_cons, pow_succ]
    cases b <;> (simp only [Bool.toNat_false, Bool.toNat_true]; omega)

/-- `val` is the inverse of `bits_w` (R6). -/
theorem val_bits (w v : Nat) : val (bits w v) = v % 2 ^ w := by
  induction w with
  | zero => simp [Nat.mod_one]
  | succ w ih =>
    rw [bits_succ, val_cons, ih, bits_length, Nat.mod_pow_succ, Nat.testBit_eq_decide_div_mod_eq]
    have : v / 2 ^ w % 2 = 0 ∨ v / 2 ^ w % 2 = 1 := by omega
    rcases this with h | h <;> (simp [h]; try omega)

theorem val_bits_of_lt {w v : Nat} (h : v < 2 ^ w) : val (bits w v) = v := by
  rw [val_bits, Nat.mod_eq_of_lt h]

/-- `bits_w` is the inverse of `val` (R6). -/
theorem bits_val (s : List Bool) : bits s.length (val s) = s := by
  induction s with
  | nil => rfl
  | cons b s ih =>
    rw [List.length_cons, bits_succ, val_cons]
    have hlt := val_lt s
    congr 1
    · rw [Nat.testBit_eq_decide_div_mod_eq, Nat.add_comm, Nat.add_mul_div_right _ _ (Nat.two_pow_pos _),
        Nat.div_eq_of_lt hlt]
      cases b <;> simp
    · rw [← bits_mod, Nat.mul_add_mod_of_lt hlt]
      exact ih

theorem bits_inj {w u v : Nat} (hu : u < 2 ^ w) (hv : v < 2 ^ w) (h : bits w u = bits w v) : u = v := by
  rw [← val_bits_of_lt hu, ← val_bits_of_lt hv, h]

end Sys2Proof

namespace Sys2Proof.Machine

@[simp] theorem byteBits_length (b : Byte) : (byteBits b).length = 8 := by simp [byteBits]

theorem ofNat_val_byteBits (b : Byte) : BitVec.ofNat 8 (val (byteBits b)) = b := by
  rw [byteBits, val_bits_of_lt b.isLt, BitVec.ofNat_toNat, BitVec.setWidth_eq]

theorem byteBits_ofNat_val (l : List Bool) (h : l.length = 8) : byteBits (BitVec.ofNat 8 (val l)) = l := by
  have hlt := val_lt l
  rw [h] at hlt
  rw [byteBits, BitVec.toNat_ofNat, Nat.mod_eq_of_lt hlt, ← h, bits_val]

@[simp] theorem flatMap_byteBits_length (l : List Byte) : (l.flatMap byteBits).length = 8 * l.length := by
  induction l with
  | nil => rfl
  | cons b l ih => simp only [List.flatMap_cons, List.length_append, byteBits_length, ih, List.length_cons]; omega

@[simp] theorem srcBits_length (s : State) : s.srcBits.length = s.srcEnd := flatMap_byteBits_length s.src

@[simp] theorem packBytes_length (l : List Bool) : (packBytes l).length = l.length / 8 := by simp [packBytes]

theorem packBytes_short (l : List Bool) (h : l.length < 8) : packBytes l = [] := by
  simp [packBytes, Nat.div_eq_of_lt h]

/-- A byte's bits in front give the byte in front (R68). -/
theorem packBytes_append (p l : List Bool) (h : p.length = 8) :
    packBytes (p ++ l) = BitVec.ofNat 8 (val p) :: packBytes l := by
  have hlen : (p ++ l).length / 8 = l.length / 8 + 1 := by rw [List.length_append, h]; omega
  rw [packBytes, hlen, List.range_succ_eq_map, List.map_cons, List.map_map, packBytes]
  congr 1
  · rw [Nat.mul_zero, List.drop_zero, List.take_append_of_le_length (by omega), List.take_of_length_le (by omega)]
  · refine List.map_congr_left fun j _ => ?_
    have : 8 * Nat.succ j = p.length + 8 * j := by rw [h]; omega
    simp only [Function.comp_apply, this, List.drop_append, List.drop_eq_nil_of_le (Nat.le_add_right _ _),
      Nat.add_sub_cancel_left, List.nil_append]

@[simp] theorem packBytes_cons_byte (b : Byte) (l : List Bool) : packBytes (byteBits b ++ l) = b :: packBytes l := by
  rw [packBytes_append _ _ (byteBits_length b), ofNat_val_byteBits]

/-- Packing a byte sequence's bits gives the byte sequence: the sink's packing is the source's (R61, R68). -/
theorem packBytes_flatMap_append (l : List Byte) (t : List Bool) :
    packBytes (l.flatMap byteBits ++ t) = l ++ packBytes t := by
  induction l with
  | nil => rfl
  | cons b l ih => rw [List.flatMap_cons, List.append_assoc, packBytes_cons_byte, ih, List.cons_append]

@[simp] theorem packBytes_flatMap (l : List Byte) : packBytes (l.flatMap byteBits) = l := by
  have := packBytes_flatMap_append l []
  simpa [packBytes] using this

/-- The packed bytes hold the bits, when there is a whole number of bytes (R68). -/
theorem flatMap_packBytes : ∀ (n : Nat) (l : List Bool), l.length = 8 * n → (packBytes l).flatMap byteBits = l
  | 0, l, h => by
    have : l = [] := List.length_eq_zero_iff.mp (by omega)
    subst this
    rfl
  | n + 1, l, h => by
    have h8 : (l.take 8).length = 8 := by rw [List.length_take]; omega
    have hd : (l.drop 8).length = 8 * n := by rw [List.length_drop]; omega
    conv_lhs => rw [← List.take_append_drop 8 l]
    rw [packBytes_append _ _ h8, List.flatMap_cons, byteBits_ofNat_val _ h8, flatMap_packBytes n _ hd,
      List.take_append_drop]

@[simp] theorem padding_length (n : Nat) : (padding n).length = (8 - n % 8) % 8 := by simp [padding]

theorem padded_length (l : List Bool) : (l ++ padding l.length).length % 8 = 0 := by
  rw [List.length_append, padding_length]
  omega

/-- The bytes of a padded string hold the string (R68). -/
theorem flatMap_packBytes_padded (l : List Bool) :
    (packBytes (l ++ padding l.length)).flatMap byteBits = l ++ padding l.length :=
  flatMap_packBytes ((l ++ padding l.length).length / 8) _ (by have := padded_length l; omega)

end Sys2Proof.Machine
end

