-- ==== Sys2Proof/Laws/State.lean ====
section
/-!
SUPPORT. What each named update of the state does to each field: one lemma per field per update, true by rfl, so that no
later proof unfolds a record update.
-/

namespace Sys2Proof.Machine

/-! ### `rewindToStart` -/

@[simp] theorem State.rewindToStart_cfg (s : State) : s.rewindToStart.cfg = s.cfg := rfl
@[simp] theorem State.rewindToStart_cmds (s : State) : s.rewindToStart.cmds = s.cmds := rfl
@[simp] theorem State.rewindToStart_binds (s : State) : s.rewindToStart.binds = s.binds := rfl
@[simp] theorem State.rewindToStart_src (s : State) : s.rewindToStart.src = s.src := rfl
@[simp] theorem State.rewindToStart_srcPos (s : State) : s.rewindToStart.srcPos = 0 := rfl
@[simp] theorem State.rewindToStart_snkBits (s : State) : s.rewindToStart.snkBits = s.snkBits := rfl
@[simp] theorem State.rewindToStart_snkBytes (s : State) : s.rewindToStart.snkBytes = s.snkBytes := rfl
@[simp] theorem State.rewindToStart_snkClosed (s : State) : s.rewindToStart.snkClosed = s.snkClosed := rfl
@[simp] theorem State.rewindToStart_run (s : State) : s.rewindToStart.run = s.run := rfl
@[simp] theorem State.rewindToStart_err (s : State) : s.rewindToStart.err = s.err := rfl
@[simp] theorem State.rewindToStart_freqValid (s : State) : s.rewindToStart.freqValid = s.freqValid := rfl
@[simp] theorem State.rewindToStart_treeState (s : State) : s.rewindToStart.treeState = s.treeState := rfl
@[simp] theorem State.rewindToStart_codeValid (s : State) : s.rewindToStart.codeValid = s.codeValid := rfl
@[simp] theorem State.rewindToStart_root (s : State) : s.rewindToStart.root = s.root := rfl
@[simp] theorem State.rewindToStart_nodeCount (s : State) : s.rewindToStart.nodeCount = s.nodeCount := rfl
@[simp] theorem State.rewindToStart_cur (s : State) : s.rewindToStart.cur = s.cur := rfl
@[simp] theorem State.rewindToStart_freq (s : State) : s.rewindToStart.freq = s.freq := rfl
@[simp] theorem State.rewindToStart_nodes (s : State) : s.rewindToStart.nodes = s.nodes := rfl
@[simp] theorem State.rewindToStart_codeHas (s : State) : s.rewindToStart.codeHas = s.codeHas := rfl
@[simp] theorem State.rewindToStart_codeLen (s : State) : s.rewindToStart.codeLen = s.codeLen := rfl
@[simp] theorem State.rewindToStart_codeVal (s : State) : s.rewindToStart.codeVal = s.codeVal := rfl
@[simp] theorem State.rewindToStart_inPq (s : State) : s.rewindToStart.inPq = s.inPq := rfl
@[simp] theorem State.rewindToStart_stack (s : State) : s.rewindToStart.stack = s.stack := rfl
@[simp] theorem State.rewindToStart_freeTick (s : State) : s.rewindToStart.freeTick = s.freeTick := rfl

/-! ### `writeBits` -/

@[simp] theorem State.writeBits_cfg (s : State) (w v : Nat) : (s.writeBits w v).cfg = s.cfg := rfl
@[simp] theorem State.writeBits_cmds (s : State) (w v : Nat) : (s.writeBits w v).cmds = s.cmds := rfl
@[simp] theorem State.writeBits_binds (s : State) (w v : Nat) : (s.writeBits w v).binds = s.binds := rfl
@[simp] theorem State.writeBits_src (s : State) (w v : Nat) : (s.writeBits w v).src = s.src := rfl
@[simp] theorem State.writeBits_srcPos (s : State) (w v : Nat) : (s.writeBits w v).srcPos = s.srcPos := rfl
@[simp] theorem State.writeBits_snkBits (s : State) (w v : Nat) :
    (s.writeBits w v).snkBits = s.snkBits ++ bits w v := rfl
@[simp] theorem State.writeBits_snkBytes (s : State) (w v : Nat) : (s.writeBits w v).snkBytes = s.snkBytes := rfl
@[simp] theorem State.writeBits_snkClosed (s : State) (w v : Nat) : (s.writeBits w v).snkClosed = s.snkClosed := rfl
@[simp] theorem State.writeBits_run (s : State) (w v : Nat) : (s.writeBits w v).run = s.run := rfl
@[simp] theorem State.writeBits_err (s : State) (w v : Nat) : (s.writeBits w v).err = s.err := rfl
@[simp] theorem State.writeBits_freqValid (s : State) (w v : Nat) : (s.writeBits w v).freqValid = s.freqValid := rfl
@[simp] theorem State.writeBits_treeState (s : State) (w v : Nat) : (s.writeBits w v).treeState = s.treeState := rfl
@[simp] theorem State.writeBits_codeValid (s : State) (w v : Nat) : (s.writeBits w v).codeValid = s.codeValid := rfl
@[simp] theorem State.writeBits_root (s : State) (w v : Nat) : (s.writeBits w v).root = s.root := rfl
@[simp] theorem State.writeBits_nodeCount (s : State) (w v : Nat) : (s.writeBits w v).nodeCount = s.nodeCount := rfl
@[simp] theorem State.writeBits_cur (s : State) (w v : Nat) : (s.writeBits w v).cur = s.cur := rfl
@[simp] theorem State.writeBits_freq (s : State) (w v : Nat) : (s.writeBits w v).freq = s.freq := rfl
@[simp] theorem State.writeBits_nodes (s : State) (w v : Nat) : (s.writeBits w v).nodes = s.nodes := rfl
@[simp] theorem State.writeBits_codeHas (s : State) (w v : Nat) : (s.writeBits w v).codeHas = s.codeHas := rfl
@[simp] theorem State.writeBits_codeLen (s : State) (w v : Nat) : (s.writeBits w v).codeLen = s.codeLen := rfl
@[simp] theorem State.writeBits_codeVal (s : State) (w v : Nat) : (s.writeBits w v).codeVal = s.codeVal := rfl
@[simp] theorem State.writeBits_inPq (s : State) (w v : Nat) : (s.writeBits w v).inPq = s.inPq := rfl
@[simp] theorem State.writeBits_stack (s : State) (w v : Nat) : (s.writeBits w v).stack = s.stack := rfl
@[simp] theorem State.writeBits_freeTick (s : State) (w v : Nat) : (s.writeBits w v).freeTick = s.freeTick := rfl

/-! ### `closeSink` -/

@[simp] theorem State.closeSink_cfg (s : State) : s.closeSink.cfg = s.cfg := rfl
@[simp] theorem State.closeSink_cmds (s : State) : s.closeSink.cmds = s.cmds := rfl
@[simp] theorem State.closeSink_binds (s : State) : s.closeSink.binds = s.binds := rfl
@[simp] theorem State.closeSink_src (s : State) : s.closeSink.src = s.src := rfl
@[simp] theorem State.closeSink_srcPos (s : State) : s.closeSink.srcPos = s.srcPos := rfl
@[simp] theorem State.closeSink_snkBits (s : State) : s.closeSink.snkBits = s.snkBits ++ padding s.snkBits.length := rfl
@[simp] theorem State.closeSink_snkBytes (s : State) :
    s.closeSink.snkBytes = some (packBytes (s.snkBits ++ padding s.snkBits.length)) := rfl
@[simp] theorem State.closeSink_snkClosed (s : State) : s.closeSink.snkClosed = true := rfl
@[simp] theorem State.closeSink_run (s : State) : s.closeSink.run = s.run := rfl
@[simp] theorem State.closeSink_err (s : State) : s.closeSink.err = s.err := rfl
@[simp] theorem State.closeSink_freqValid (s : State) : s.closeSink.freqValid = s.freqValid := rfl
@[simp] theorem State.closeSink_treeState (s : State) : s.closeSink.treeState = s.treeState := rfl
@[simp] theorem State.closeSink_codeValid (s : State) : s.closeSink.codeValid = s.codeValid := rfl
@[simp] theorem State.closeSink_root (s : State) : s.closeSink.root = s.root := rfl
@[simp] theorem State.closeSink_nodeCount (s : State) : s.closeSink.nodeCount = s.nodeCount := rfl
@[simp] theorem State.closeSink_cur (s : State) : s.closeSink.cur = s.cur := rfl
@[simp] theorem State.closeSink_freq (s : State) : s.closeSink.freq = s.freq := rfl
@[simp] theorem State.closeSink_nodes (s : State) : s.closeSink.nodes = s.nodes := rfl
@[simp] theorem State.closeSink_codeHas (s : State) : s.closeSink.codeHas = s.codeHas := rfl
@[simp] theorem State.closeSink_codeLen (s : State) : s.closeSink.codeLen = s.codeLen := rfl
@[simp] theorem State.closeSink_codeVal (s : State) : s.closeSink.codeVal = s.codeVal := rfl
@[simp] theorem State.closeSink_inPq (s : State) : s.closeSink.inPq = s.inPq := rfl
@[simp] theorem State.closeSink_stack (s : State) : s.closeSink.stack = s.stack := rfl
@[simp] theorem State.closeSink_freeTick (s : State) : s.closeSink.freeTick = s.freeTick := rfl

/-! ### `setNode` -/

@[simp] theorem State.setNode_cfg (s : State) (i : Fin 513) (n : Node) : (s.setNode i n).cfg = s.cfg := rfl
@[simp] theorem State.setNode_cmds (s : State) (i : Fin 513) (n : Node) : (s.setNode i n).cmds = s.cmds := rfl
@[simp] theorem State.setNode_binds (s : State) (i : Fin 513) (n : Node) : (s.setNode i n).binds = s.binds := rfl
@[simp] theorem State.setNode_src (s : State) (i : Fin 513) (n : Node) : (s.setNode i n).src = s.src := rfl
@[simp] theorem State.setNode_srcPos (s : State) (i : Fin 513) (n : Node) : (s.setNode i n).srcPos = s.srcPos := rfl
@[simp] theorem State.setNode_snkBits (s : State) (i : Fin 513) (n : Node) : (s.setNode i n).snkBits = s.snkBits := rfl
@[simp] theorem State.setNode_snkBytes (s : State) (i : Fin 513) (n : Node) :
    (s.setNode i n).snkBytes = s.snkBytes := rfl
@[simp] theorem State.setNode_snkClosed (s : State) (i : Fin 513) (n : Node) :
    (s.setNode i n).snkClosed = s.snkClosed := rfl
@[simp] theorem State.setNode_run (s : State) (i : Fin 513) (n : Node) : (s.setNode i n).run = s.run := rfl
@[simp] theorem State.setNode_err (s : State) (i : Fin 513) (n : Node) : (s.setNode i n).err = s.err := rfl
@[simp] theorem State.setNode_freqValid (s : State) (i : Fin 513) (n : Node) :
    (s.setNode i n).freqValid = s.freqValid := rfl
@[simp] theorem State.setNode_treeState (s : State) (i : Fin 513) (n : Node) :
    (s.setNode i n).treeState = s.treeState := rfl
@[simp] theorem State.setNode_codeValid (s : State) (i : Fin 513) (n : Node) :
    (s.setNode i n).codeValid = s.codeValid := rfl
@[simp] theorem State.setNode_root (s : State) (i : Fin 513) (n : Node) : (s.setNode i n).root = s.root := rfl
@[simp] theorem State.setNode_nodeCount (s : State) (i : Fin 513) (n : Node) :
    (s.setNode i n).nodeCount = s.nodeCount := rfl
@[simp] theorem State.setNode_cur (s : State) (i : Fin 513) (n : Node) : (s.setNode i n).cur = s.cur := rfl
@[simp] theorem State.setNode_freq (s : State) (i : Fin 513) (n : Node) : (s.setNode i n).freq = s.freq := rfl
@[simp] theorem State.setNode_nodes (s : State) (i : Fin 513) (n : Node) :
    (s.setNode i n).nodes = s.nodes.set i n := rfl
@[simp] theorem State.setNode_codeHas (s : State) (i : Fin 513) (n : Node) : (s.setNode i n).codeHas = s.codeHas := rfl
@[simp] theorem State.setNode_codeLen (s : State) (i : Fin 513) (n : Node) : (s.setNode i n).codeLen = s.codeLen := rfl
@[simp] theorem State.setNode_codeVal (s : State) (i : Fin 513) (n : Node) : (s.setNode i n).codeVal = s.codeVal := rfl
@[simp] theorem State.setNode_inPq (s : State) (i : Fin 513) (n : Node) : (s.setNode i n).inPq = s.inPq := rfl
@[simp] theorem State.setNode_stack (s : State) (i : Fin 513) (n : Node) : (s.setNode i n).stack = s.stack := rfl
@[simp] theorem State.setNode_freeTick (s : State) (i : Fin 513) (n : Node) :
    (s.setNode i n).freeTick = s.freeTick := rfl

/-! ### `tick` -/

@[simp] theorem State.tick_cfg (s : State) : s.tick.cfg = s.cfg := rfl
@[simp] theorem State.tick_cmds (s : State) : s.tick.cmds = s.cmds := rfl
@[simp] theorem State.tick_binds (s : State) : s.tick.binds = s.binds := rfl
@[simp] theorem State.tick_src (s : State) : s.tick.src = s.src := rfl
@[simp] theorem State.tick_srcPos (s : State) : s.tick.srcPos = s.srcPos := rfl
@[simp] theorem State.tick_snkBits (s : State) : s.tick.snkBits = s.snkBits := rfl
@[simp] theorem State.tick_snkBytes (s : State) : s.tick.snkBytes = s.snkBytes := rfl
@[simp] theorem State.tick_snkClosed (s : State) : s.tick.snkClosed = s.snkClosed := rfl
@[simp] theorem State.tick_run (s : State) : s.tick.run = s.run := rfl
@[simp] theorem State.tick_err (s : State) : s.tick.err = s.err := rfl
@[simp] theorem State.tick_freqValid (s : State) : s.tick.freqValid = s.freqValid := rfl
@[simp] theorem State.tick_treeState (s : State) : s.tick.treeState = s.treeState := rfl
@[simp] theorem State.tick_codeValid (s : State) : s.tick.codeValid = s.codeValid := rfl
@[simp] theorem State.tick_root (s : State) : s.tick.root = s.root := rfl
@[simp] theorem State.tick_nodeCount (s : State) : s.tick.nodeCount = s.nodeCount := rfl
@[simp] theorem State.tick_cur (s : State) : s.tick.cur = s.cur := rfl
@[simp] theorem State.tick_freq (s : State) : s.tick.freq = s.freq := rfl
@[simp] theorem State.tick_nodes (s : State) : s.tick.nodes = s.nodes := rfl
@[simp] theorem State.tick_codeHas (s : State) : s.tick.codeHas = s.codeHas := rfl
@[simp] theorem State.tick_codeLen (s : State) : s.tick.codeLen = s.codeLen := rfl
@[simp] theorem State.tick_codeVal (s : State) : s.tick.codeVal = s.codeVal := rfl
@[simp] theorem State.tick_inPq (s : State) : s.tick.inPq = s.inPq := rfl
@[simp] theorem State.tick_stack (s : State) : s.tick.stack = s.stack := rfl
@[simp] theorem State.tick_freeTick (s : State) : s.tick.freeTick = s.freeTick + 1 := rfl

/-! ### `setCode` -/

@[simp] theorem State.setCode_cfg (s : State) (y : Symbol) (p : List Bool) : (s.setCode y p).cfg = s.cfg := rfl
@[simp] theorem State.setCode_cmds (s : State) (y : Symbol) (p : List Bool) : (s.setCode y p).cmds = s.cmds := rfl
@[simp] theorem State.setCode_binds (s : State) (y : Symbol) (p : List Bool) : (s.setCode y p).binds = s.binds := rfl
@[simp] theorem State.setCode_src (s : State) (y : Symbol) (p : List Bool) : (s.setCode y p).src = s.src := rfl
@[simp] theorem State.setCode_srcPos (s : State) (y : Symbol) (p : List Bool) : (s.setCode y p).srcPos = s.srcPos := rfl
@[simp] theorem State.setCode_snkBits (s : State) (y : Symbol) (p : List Bool) :
    (s.setCode y p).snkBits = s.snkBits := rfl
@[simp] theorem State.setCode_snkBytes (s : State) (y : Symbol) (p : List Bool) :
    (s.setCode y p).snkBytes = s.snkBytes := rfl
@[simp] theorem State.setCode_snkClosed (s : State) (y : Symbol) (p : List Bool) :
    (s.setCode y p).snkClosed = s.snkClosed := rfl
@[simp] theorem State.setCode_run (s : State) (y : Symbol) (p : List Bool) : (s.setCode y p).run = s.run := rfl
@[simp] theorem State.setCode_err (s : State) (y : Symbol) (p : List Bool) : (s.setCode y p).err = s.err := rfl
@[simp] theorem State.setCode_freqValid (s : State) (y : Symbol) (p : List Bool) :
    (s.setCode y p).freqValid = s.freqValid := rfl
@[simp] theorem State.setCode_treeState (s : State) (y : Symbol) (p : List Bool) :
    (s.setCode y p).treeState = s.treeState := rfl
@[simp] theorem State.setCode_codeValid (s : State) (y : Symbol) (p : List Bool) :
    (s.setCode y p).codeValid = s.codeValid := rfl
@[simp] theorem State.setCode_root (s : State) (y : Symbol) (p : List Bool) : (s.setCode y p).root = s.root := rfl
@[simp] theorem State.setCode_nodeCount (s : State) (y : Symbol) (p : List Bool) :
    (s.setCode y p).nodeCount = s.nodeCount := rfl
@[simp] theorem State.setCode_cur (s : State) (y : Symbol) (p : List Bool) : (s.setCode y p).cur = s.cur := rfl
@[simp] theorem State.setCode_freq (s : State) (y : Symbol) (p : List Bool) : (s.setCode y p).freq = s.freq := rfl
@[simp] theorem State.setCode_nodes (s : State) (y : Symbol) (p : List Bool) : (s.setCode y p).nodes = s.nodes := rfl
@[simp] theorem State.setCode_codeHas (s : State) (y : Symbol) (p : List Bool) :
    (s.setCode y p).codeHas = s.codeHas.set y true := rfl
@[simp] theorem State.setCode_codeLen (s : State) (y : Symbol) (p : List Bool) :
    (s.setCode y p).codeLen = s.codeLen.set y (BitVec.ofNat 9 p.length) := rfl
@[simp] theorem State.setCode_codeVal (s : State) (y : Symbol) (p : List Bool) :
    (s.setCode y p).codeVal = s.codeVal.set y (BitVec.ofNat 256 (val p)) := rfl
@[simp] theorem State.setCode_inPq (s : State) (y : Symbol) (p : List Bool) : (s.setCode y p).inPq = s.inPq := rfl
@[simp] theorem State.setCode_stack (s : State) (y : Symbol) (p : List Bool) : (s.setCode y p).stack = s.stack := rfl
@[simp] theorem State.setCode_freeTick (s : State) (y : Symbol) (p : List Bool) :
    (s.setCode y p).freeTick = s.freeTick := rfl

/-! ### `clearCodes` -/

@[simp] theorem State.clearCodes_cfg (s : State) : s.clearCodes.cfg = s.cfg := rfl
@[simp] theorem State.clearCodes_cmds (s : State) : s.clearCodes.cmds = s.cmds := rfl
@[simp] theorem State.clearCodes_binds (s : State) : s.clearCodes.binds = s.binds := rfl
@[simp] theorem State.clearCodes_src (s : State) : s.clearCodes.src = s.src := rfl
@[simp] theorem State.clearCodes_srcPos (s : State) : s.clearCodes.srcPos = s.srcPos := rfl
@[simp] theorem State.clearCodes_snkBits (s : State) : s.clearCodes.snkBits = s.snkBits := rfl
@[simp] theorem State.clearCodes_snkBytes (s : State) : s.clearCodes.snkBytes = s.snkBytes := rfl
@[simp] theorem State.clearCodes_snkClosed (s : State) : s.clearCodes.snkClosed = s.snkClosed := rfl
@[simp] theorem State.clearCodes_run (s : State) : s.clearCodes.run = s.run := rfl
@[simp] theorem State.clearCodes_err (s : State) : s.clearCodes.err = s.err := rfl
@[simp] theorem State.clearCodes_freqValid (s : State) : s.clearCodes.freqValid = s.freqValid := rfl
@[simp] theorem State.clearCodes_treeState (s : State) : s.clearCodes.treeState = s.treeState := rfl
@[simp] theorem State.clearCodes_codeValid (s : State) : s.clearCodes.codeValid = s.codeValid := rfl
@[simp] theorem State.clearCodes_root (s : State) : s.clearCodes.root = s.root := rfl
@[simp] theorem State.clearCodes_nodeCount (s : State) : s.clearCodes.nodeCount = s.nodeCount := rfl
@[simp] theorem State.clearCodes_cur (s : State) : s.clearCodes.cur = s.cur := rfl
@[simp] theorem State.clearCodes_freq (s : State) : s.clearCodes.freq = s.freq := rfl
@[simp] theorem State.clearCodes_nodes (s : State) : s.clearCodes.nodes = s.nodes := rfl
@[simp] theorem State.clearCodes_codeHas (s : State) : s.clearCodes.codeHas = Vector.replicate 257 false := rfl
@[simp] theorem State.clearCodes_codeLen (s : State) :
    s.clearCodes.codeLen = Vector.ofFn (Config.freeCodeLen s.freeTick) := rfl
@[simp] theorem State.clearCodes_codeVal (s : State) :
    s.clearCodes.codeVal = Vector.ofFn (Config.freeCodeVal s.freeTick) := rfl
@[simp] theorem State.clearCodes_inPq (s : State) : s.clearCodes.inPq = s.inPq := rfl
@[simp] theorem State.clearCodes_stack (s : State) : s.clearCodes.stack = s.stack := rfl
@[simp] theorem State.clearCodes_freeTick (s : State) : s.clearCodes.freeTick = s.freeTick + 1 := rfl

/-! ### `pqInsert` -/

@[simp] theorem State.pqInsert_cfg (s : State) (i : Nat) : (s.pqInsert i).cfg = s.cfg := rfl
@[simp] theorem State.pqInsert_cmds (s : State) (i : Nat) : (s.pqInsert i).cmds = s.cmds := rfl
@[simp] theorem State.pqInsert_binds (s : State) (i : Nat) : (s.pqInsert i).binds = s.binds := rfl
@[simp] theorem State.pqInsert_src (s : State) (i : Nat) : (s.pqInsert i).src = s.src := rfl
@[simp] theorem State.pqInsert_srcPos (s : State) (i : Nat) : (s.pqInsert i).srcPos = s.srcPos := rfl
@[simp] theorem State.pqInsert_snkBits (s : State) (i : Nat) : (s.pqInsert i).snkBits = s.snkBits := rfl
@[simp] theorem State.pqInsert_snkBytes (s : State) (i : Nat) : (s.pqInsert i).snkBytes = s.snkBytes := rfl
@[simp] theorem State.pqInsert_snkClosed (s : State) (i : Nat) : (s.pqInsert i).snkClosed = s.snkClosed := rfl
@[simp] theorem State.pqInsert_run (s : State) (i : Nat) : (s.pqInsert i).run = s.run := rfl
@[simp] theorem State.pqInsert_err (s : State) (i : Nat) : (s.pqInsert i).err = s.err := rfl
@[simp] theorem State.pqInsert_freqValid (s : State) (i : Nat) : (s.pqInsert i).freqValid = s.freqValid := rfl
@[simp] theorem State.pqInsert_treeState (s : State) (i : Nat) : (s.pqInsert i).treeState = s.treeState := rfl
@[simp] theorem State.pqInsert_codeValid (s : State) (i : Nat) : (s.pqInsert i).codeValid = s.codeValid := rfl
@[simp] theorem State.pqInsert_root (s : State) (i : Nat) : (s.pqInsert i).root = s.root := rfl
@[simp] theorem State.pqInsert_nodeCount (s : State) (i : Nat) : (s.pqInsert i).nodeCount = s.nodeCount := rfl
@[simp] theorem State.pqInsert_cur (s : State) (i : Nat) : (s.pqInsert i).cur = s.cur := rfl
@[simp] theorem State.pqInsert_freq (s : State) (i : Nat) : (s.pqInsert i).freq = s.freq := rfl
@[simp] theorem State.pqInsert_nodes (s : State) (i : Nat) : (s.pqInsert i).nodes = s.nodes := rfl
@[simp] theorem State.pqInsert_codeHas (s : State) (i : Nat) : (s.pqInsert i).codeHas = s.codeHas := rfl
@[simp] theorem State.pqInsert_codeLen (s : State) (i : Nat) : (s.pqInsert i).codeLen = s.codeLen := rfl
@[simp] theorem State.pqInsert_codeVal (s : State) (i : Nat) : (s.pqInsert i).codeVal = s.codeVal := rfl
@[simp] theorem State.pqInsert_inPq (s : State) (i : Nat) : (s.pqInsert i).inPq = s.inPq ||| BitVec.twoPow 513 i := rfl
@[simp] theorem State.pqInsert_stack (s : State) (i : Nat) : (s.pqInsert i).stack = s.stack := rfl
@[simp] theorem State.pqInsert_freeTick (s : State) (i : Nat) : (s.pqInsert i).freeTick = s.freeTick := rfl

/-! ### `pqRemove` -/

@[simp] theorem State.pqRemove_cfg (s : State) (i : Nat) : (s.pqRemove i).cfg = s.cfg := rfl
@[simp] theorem State.pqRemove_cmds (s : State) (i : Nat) : (s.pqRemove i).cmds = s.cmds := rfl
@[simp] theorem State.pqRemove_binds (s : State) (i : Nat) : (s.pqRemove i).binds = s.binds := rfl
@[simp] theorem State.pqRemove_src (s : State) (i : Nat) : (s.pqRemove i).src = s.src := rfl
@[simp] theorem State.pqRemove_srcPos (s : State) (i : Nat) : (s.pqRemove i).srcPos = s.srcPos := rfl
@[simp] theorem State.pqRemove_snkBits (s : State) (i : Nat) : (s.pqRemove i).snkBits = s.snkBits := rfl
@[simp] theorem State.pqRemove_snkBytes (s : State) (i : Nat) : (s.pqRemove i).snkBytes = s.snkBytes := rfl
@[simp] theorem State.pqRemove_snkClosed (s : State) (i : Nat) : (s.pqRemove i).snkClosed = s.snkClosed := rfl
@[simp] theorem State.pqRemove_run (s : State) (i : Nat) : (s.pqRemove i).run = s.run := rfl
@[simp] theorem State.pqRemove_err (s : State) (i : Nat) : (s.pqRemove i).err = s.err := rfl
@[simp] theorem State.pqRemove_freqValid (s : State) (i : Nat) : (s.pqRemove i).freqValid = s.freqValid := rfl
@[simp] theorem State.pqRemove_treeState (s : State) (i : Nat) : (s.pqRemove i).treeState = s.treeState := rfl
@[simp] theorem State.pqRemove_codeValid (s : State) (i : Nat) : (s.pqRemove i).codeValid = s.codeValid := rfl
@[simp] theorem State.pqRemove_root (s : State) (i : Nat) : (s.pqRemove i).root = s.root := rfl
@[simp] theorem State.pqRemove_nodeCount (s : State) (i : Nat) : (s.pqRemove i).nodeCount = s.nodeCount := rfl
@[simp] theorem State.pqRemove_cur (s : State) (i : Nat) : (s.pqRemove i).cur = s.cur := rfl
@[simp] theorem State.pqRemove_freq (s : State) (i : Nat) : (s.pqRemove i).freq = s.freq := rfl
@[simp] theorem State.pqRemove_nodes (s : State) (i : Nat) : (s.pqRemove i).nodes = s.nodes := rfl
@[simp] theorem State.pqRemove_codeHas (s : State) (i : Nat) : (s.pqRemove i).codeHas = s.codeHas := rfl
@[simp] theorem State.pqRemove_codeLen (s : State) (i : Nat) : (s.pqRemove i).codeLen = s.codeLen := rfl
@[simp] theorem State.pqRemove_codeVal (s : State) (i : Nat) : (s.pqRemove i).codeVal = s.codeVal := rfl
@[simp] theorem State.pqRemove_inPq (s : State) (i : Nat) :
    (s.pqRemove i).inPq = s.inPq &&& ~~~(BitVec.twoPow 513 i) := rfl
@[simp] theorem State.pqRemove_stack (s : State) (i : Nat) : (s.pqRemove i).stack = s.stack := rfl
@[simp] theorem State.pqRemove_freeTick (s : State) (i : Nat) : (s.pqRemove i).freeTick = s.freeTick := rfl

/-! ### `writeCode` -/

@[simp] theorem State.writeCode_cfg (s : State) (y : Symbol) : (s.writeCode y).cfg = s.cfg := rfl
@[simp] theorem State.writeCode_cmds (s : State) (y : Symbol) : (s.writeCode y).cmds = s.cmds := rfl
@[simp] theorem State.writeCode_binds (s : State) (y : Symbol) : (s.writeCode y).binds = s.binds := rfl
@[simp] theorem State.writeCode_src (s : State) (y : Symbol) : (s.writeCode y).src = s.src := rfl
@[simp] theorem State.writeCode_srcPos (s : State) (y : Symbol) : (s.writeCode y).srcPos = s.srcPos := rfl
@[simp] theorem State.writeCode_snkBits (s : State) (y : Symbol) :
    (s.writeCode y).snkBits = s.snkBits ++ s.codeOf y := rfl
@[simp] theorem State.writeCode_snkBytes (s : State) (y : Symbol) : (s.writeCode y).snkBytes = s.snkBytes := rfl
@[simp] theorem State.writeCode_snkClosed (s : State) (y : Symbol) : (s.writeCode y).snkClosed = s.snkClosed := rfl
@[simp] theorem State.writeCode_run (s : State) (y : Symbol) : (s.writeCode y).run = s.run := rfl
@[simp] theorem State.writeCode_err (s : State) (y : Symbol) : (s.writeCode y).err = s.err := rfl
@[simp] theorem State.writeCode_freqValid (s : State) (y : Symbol) : (s.writeCode y).freqValid = s.freqValid := rfl
@[simp] theorem State.writeCode_treeState (s : State) (y : Symbol) : (s.writeCode y).treeState = s.treeState := rfl
@[simp] theorem State.writeCode_codeValid (s : State) (y : Symbol) : (s.writeCode y).codeValid = s.codeValid := rfl
@[simp] theorem State.writeCode_root (s : State) (y : Symbol) : (s.writeCode y).root = s.root := rfl
@[simp] theorem State.writeCode_nodeCount (s : State) (y : Symbol) : (s.writeCode y).nodeCount = s.nodeCount := rfl
@[simp] theorem State.writeCode_cur (s : State) (y : Symbol) : (s.writeCode y).cur = s.cur := rfl
@[simp] theorem State.writeCode_freq (s : State) (y : Symbol) : (s.writeCode y).freq = s.freq := rfl
@[simp] theorem State.writeCode_nodes (s : State) (y : Symbol) : (s.writeCode y).nodes = s.nodes := rfl
@[simp] theorem State.writeCode_codeHas (s : State) (y : Symbol) : (s.writeCode y).codeHas = s.codeHas := rfl
@[simp] theorem State.writeCode_codeLen (s : State) (y : Symbol) : (s.writeCode y).codeLen = s.codeLen := rfl
@[simp] theorem State.writeCode_codeVal (s : State) (y : Symbol) : (s.writeCode y).codeVal = s.codeVal := rfl
@[simp] theorem State.writeCode_inPq (s : State) (y : Symbol) : (s.writeCode y).inPq = s.inPq := rfl
@[simp] theorem State.writeCode_stack (s : State) (y : Symbol) : (s.writeCode y).stack = s.stack := rfl
@[simp] theorem State.writeCode_freeTick (s : State) (y : Symbol) : (s.writeCode y).freeTick = s.freeTick := rfl

/-! ### `dropAll` -/

@[simp] theorem State.dropAll_cfg (s : State) : s.dropAll.cfg = s.cfg := rfl
@[simp] theorem State.dropAll_cmds (s : State) : s.dropAll.cmds = s.cmds := rfl
@[simp] theorem State.dropAll_binds (s : State) : s.dropAll.binds = s.binds := rfl
@[simp] theorem State.dropAll_src (s : State) : s.dropAll.src = s.src := rfl
@[simp] theorem State.dropAll_srcPos (s : State) : s.dropAll.srcPos = s.srcPos := rfl
@[simp] theorem State.dropAll_snkBits (s : State) : s.dropAll.snkBits = s.snkBits := rfl
@[simp] theorem State.dropAll_snkBytes (s : State) : s.dropAll.snkBytes = s.snkBytes := rfl
@[simp] theorem State.dropAll_snkClosed (s : State) : s.dropAll.snkClosed = s.snkClosed := rfl
@[simp] theorem State.dropAll_run (s : State) : s.dropAll.run = s.run := rfl
@[simp] theorem State.dropAll_err (s : State) : s.dropAll.err = s.err := rfl
@[simp] theorem State.dropAll_freqValid (s : State) : s.dropAll.freqValid = false := rfl
@[simp] theorem State.dropAll_treeState (s : State) : s.dropAll.treeState = .none := rfl
@[simp] theorem State.dropAll_codeValid (s : State) : s.dropAll.codeValid = false := rfl
@[simp] theorem State.dropAll_root (s : State) : s.dropAll.root = s.root := rfl
@[simp] theorem State.dropAll_nodeCount (s : State) : s.dropAll.nodeCount = s.nodeCount := rfl
@[simp] theorem State.dropAll_cur (s : State) : s.dropAll.cur = s.cur := rfl
@[simp] theorem State.dropAll_freq (s : State) : s.dropAll.freq = s.freq := rfl
@[simp] theorem State.dropAll_nodes (s : State) : s.dropAll.nodes = s.nodes := rfl
@[simp] theorem State.dropAll_codeHas (s : State) : s.dropAll.codeHas = s.codeHas := rfl
@[simp] theorem State.dropAll_codeLen (s : State) : s.dropAll.codeLen = s.codeLen := rfl
@[simp] theorem State.dropAll_codeVal (s : State) : s.dropAll.codeVal = s.codeVal := rfl
@[simp] theorem State.dropAll_inPq (s : State) : s.dropAll.inPq = s.inPq := rfl
@[simp] theorem State.dropAll_stack (s : State) : s.dropAll.stack = s.stack := rfl
@[simp] theorem State.dropAll_freeTick (s : State) : s.dropAll.freeTick = s.freeTick := rfl

/-! ### `dropTree` -/

@[simp] theorem State.dropTree_cfg (s : State) : s.dropTree.cfg = s.cfg := rfl
@[simp] theorem State.dropTree_cmds (s : State) : s.dropTree.cmds = s.cmds := rfl
@[simp] theorem State.dropTree_binds (s : State) : s.dropTree.binds = s.binds := rfl
@[simp] theorem State.dropTree_src (s : State) : s.dropTree.src = s.src := rfl
@[simp] theorem State.dropTree_srcPos (s : State) : s.dropTree.srcPos = s.srcPos := rfl
@[simp] theorem State.dropTree_snkBits (s : State) : s.dropTree.snkBits = s.snkBits := rfl
@[simp] theorem State.dropTree_snkBytes (s : State) : s.dropTree.snkBytes = s.snkBytes := rfl
@[simp] theorem State.dropTree_snkClosed (s : State) : s.dropTree.snkClosed = s.snkClosed := rfl
@[simp] theorem State.dropTree_run (s : State) : s.dropTree.run = s.run := rfl
@[simp] theorem State.dropTree_err (s : State) : s.dropTree.err = s.err := rfl
@[simp] theorem State.dropTree_freqValid (s : State) : s.dropTree.freqValid = s.freqValid := rfl
@[simp] theorem State.dropTree_treeState (s : State) : s.dropTree.treeState = .none := rfl
@[simp] theorem State.dropTree_codeValid (s : State) : s.dropTree.codeValid = false := rfl
@[simp] theorem State.dropTree_root (s : State) : s.dropTree.root = s.root := rfl
@[simp] theorem State.dropTree_nodeCount (s : State) : s.dropTree.nodeCount = s.nodeCount := rfl
@[simp] theorem State.dropTree_cur (s : State) : s.dropTree.cur = s.cur := rfl
@[simp] theorem State.dropTree_freq (s : State) : s.dropTree.freq = s.freq := rfl
@[simp] theorem State.dropTree_nodes (s : State) : s.dropTree.nodes = s.nodes := rfl
@[simp] theorem State.dropTree_codeHas (s : State) : s.dropTree.codeHas = s.codeHas := rfl
@[simp] theorem State.dropTree_codeLen (s : State) : s.dropTree.codeLen = s.codeLen := rfl
@[simp] theorem State.dropTree_codeVal (s : State) : s.dropTree.codeVal = s.codeVal := rfl
@[simp] theorem State.dropTree_inPq (s : State) : s.dropTree.inPq = s.inPq := rfl
@[simp] theorem State.dropTree_stack (s : State) : s.dropTree.stack = s.stack := rfl
@[simp] theorem State.dropTree_freeTick (s : State) : s.dropTree.freeTick = s.freeTick := rfl

/-! ### `bump` -/

@[simp] theorem State.bump_cfg (s : State) (v : Byte) : (s.bump v).cfg = s.cfg := rfl
@[simp] theorem State.bump_cmds (s : State) (v : Byte) : (s.bump v).cmds = s.cmds := rfl
@[simp] theorem State.bump_binds (s : State) (v : Byte) : (s.bump v).binds = s.binds := rfl
@[simp] theorem State.bump_src (s : State) (v : Byte) : (s.bump v).src = s.src := rfl
@[simp] theorem State.bump_srcPos (s : State) (v : Byte) : (s.bump v).srcPos = s.srcPos := rfl
@[simp] theorem State.bump_snkBits (s : State) (v : Byte) : (s.bump v).snkBits = s.snkBits := rfl
@[simp] theorem State.bump_snkBytes (s : State) (v : Byte) : (s.bump v).snkBytes = s.snkBytes := rfl
@[simp] theorem State.bump_snkClosed (s : State) (v : Byte) : (s.bump v).snkClosed = s.snkClosed := rfl
@[simp] theorem State.bump_run (s : State) (v : Byte) : (s.bump v).run = s.run := rfl
@[simp] theorem State.bump_err (s : State) (v : Byte) : (s.bump v).err = s.err := rfl
@[simp] theorem State.bump_freqValid (s : State) (v : Byte) : (s.bump v).freqValid = s.freqValid := rfl
@[simp] theorem State.bump_treeState (s : State) (v : Byte) : (s.bump v).treeState = s.treeState := rfl
@[simp] theorem State.bump_codeValid (s : State) (v : Byte) : (s.bump v).codeValid = s.codeValid := rfl
@[simp] theorem State.bump_root (s : State) (v : Byte) : (s.bump v).root = s.root := rfl
@[simp] theorem State.bump_nodeCount (s : State) (v : Byte) : (s.bump v).nodeCount = s.nodeCount := rfl
@[simp] theorem State.bump_cur (s : State) (v : Byte) : (s.bump v).cur = s.cur := rfl
@[simp] theorem State.bump_freq (s : State) (v : Byte) :
    (s.bump v).freq = s.freq.set (dataSymbol v) (s.freq[dataSymbol v] + 1) := rfl
@[simp] theorem State.bump_nodes (s : State) (v : Byte) : (s.bump v).nodes = s.nodes := rfl
@[simp] theorem State.bump_codeHas (s : State) (v : Byte) : (s.bump v).codeHas = s.codeHas := rfl
@[simp] theorem State.bump_codeLen (s : State) (v : Byte) : (s.bump v).codeLen = s.codeLen := rfl
@[simp] theorem State.bump_codeVal (s : State) (v : Byte) : (s.bump v).codeVal = s.codeVal := rfl
@[simp] theorem State.bump_inPq (s : State) (v : Byte) : (s.bump v).inPq = s.inPq := rfl
@[simp] theorem State.bump_stack (s : State) (v : Byte) : (s.bump v).stack = s.stack := rfl
@[simp] theorem State.bump_freeTick (s : State) (v : Byte) : (s.bump v).freeTick = s.freeTick := rfl

/-! ### `clearFreq` -/

@[simp] theorem State.clearFreq_cfg (s : State) : s.clearFreq.cfg = s.cfg := rfl
@[simp] theorem State.clearFreq_cmds (s : State) : s.clearFreq.cmds = s.cmds := rfl
@[simp] theorem State.clearFreq_binds (s : State) : s.clearFreq.binds = s.binds := rfl
@[simp] theorem State.clearFreq_src (s : State) : s.clearFreq.src = s.src := rfl
@[simp] theorem State.clearFreq_srcPos (s : State) : s.clearFreq.srcPos = s.srcPos := rfl
@[simp] theorem State.clearFreq_snkBits (s : State) : s.clearFreq.snkBits = s.snkBits := rfl
@[simp] theorem State.clearFreq_snkBytes (s : State) : s.clearFreq.snkBytes = s.snkBytes := rfl
@[simp] theorem State.clearFreq_snkClosed (s : State) : s.clearFreq.snkClosed = s.snkClosed := rfl
@[simp] theorem State.clearFreq_run (s : State) : s.clearFreq.run = s.run := rfl
@[simp] theorem State.clearFreq_err (s : State) : s.clearFreq.err = s.err := rfl
@[simp] theorem State.clearFreq_freqValid (s : State) : s.clearFreq.freqValid = s.freqValid := rfl
@[simp] theorem State.clearFreq_treeState (s : State) : s.clearFreq.treeState = s.treeState := rfl
@[simp] theorem State.clearFreq_codeValid (s : State) : s.clearFreq.codeValid = s.codeValid := rfl
@[simp] theorem State.clearFreq_root (s : State) : s.clearFreq.root = s.root := rfl
@[simp] theorem State.clearFreq_nodeCount (s : State) : s.clearFreq.nodeCount = s.nodeCount := rfl
@[simp] theorem State.clearFreq_cur (s : State) : s.clearFreq.cur = s.cur := rfl
@[simp] theorem State.clearFreq_freq (s : State) :
    s.clearFreq.freq = (Vector.replicate 257 0).set Config.eofSymbol 1 := rfl
@[simp] theorem State.clearFreq_nodes (s : State) : s.clearFreq.nodes = s.nodes := rfl
@[simp] theorem State.clearFreq_codeHas (s : State) : s.clearFreq.codeHas = s.codeHas := rfl
@[simp] theorem State.clearFreq_codeLen (s : State) : s.clearFreq.codeLen = s.codeLen := rfl
@[simp] theorem State.clearFreq_codeVal (s : State) : s.clearFreq.codeVal = s.codeVal := rfl
@[simp] theorem State.clearFreq_inPq (s : State) : s.clearFreq.inPq = s.inPq := rfl
@[simp] theorem State.clearFreq_stack (s : State) : s.clearFreq.stack = s.stack := rfl
@[simp] theorem State.clearFreq_freeTick (s : State) : s.clearFreq.freeTick = s.freeTick := rfl

/-! ### `countNode` -/

@[simp] theorem State.countNode_cfg (s : State) : s.countNode.cfg = s.cfg := rfl
@[simp] theorem State.countNode_cmds (s : State) : s.countNode.cmds = s.cmds := rfl
@[simp] theorem State.countNode_binds (s : State) : s.countNode.binds = s.binds := rfl
@[simp] theorem State.countNode_src (s : State) : s.countNode.src = s.src := rfl
@[simp] theorem State.countNode_srcPos (s : State) : s.countNode.srcPos = s.srcPos := rfl
@[simp] theorem State.countNode_snkBits (s : State) : s.countNode.snkBits = s.snkBits := rfl
@[simp] theorem State.countNode_snkBytes (s : State) : s.countNode.snkBytes = s.snkBytes := rfl
@[simp] theorem State.countNode_snkClosed (s : State) : s.countNode.snkClosed = s.snkClosed := rfl
@[simp] theorem State.countNode_run (s : State) : s.countNode.run = s.run := rfl
@[simp] theorem State.countNode_err (s : State) : s.countNode.err = s.err := rfl
@[simp] theorem State.countNode_freqValid (s : State) : s.countNode.freqValid = s.freqValid := rfl
@[simp] theorem State.countNode_treeState (s : State) : s.countNode.treeState = s.treeState := rfl
@[simp] theorem State.countNode_codeValid (s : State) : s.countNode.codeValid = s.codeValid := rfl
@[simp] theorem State.countNode_root (s : State) : s.countNode.root = s.root := rfl
@[simp] theorem State.countNode_nodeCount (s : State) : s.countNode.nodeCount = s.nodeCount + 1#10 := rfl
@[simp] theorem State.countNode_cur (s : State) : s.countNode.cur = s.cur := rfl
@[simp] theorem State.countNode_freq (s : State) : s.countNode.freq = s.freq := rfl
@[simp] theorem State.countNode_nodes (s : State) : s.countNode.nodes = s.nodes := rfl
@[simp] theorem State.countNode_codeHas (s : State) : s.countNode.codeHas = s.codeHas := rfl
@[simp] theorem State.countNode_codeLen (s : State) : s.countNode.codeLen = s.codeLen := rfl
@[simp] theorem State.countNode_codeVal (s : State) : s.countNode.codeVal = s.codeVal := rfl
@[simp] theorem State.countNode_inPq (s : State) : s.countNode.inPq = s.inPq := rfl
@[simp] theorem State.countNode_stack (s : State) : s.countNode.stack = s.stack := rfl
@[simp] theorem State.countNode_freeTick (s : State) : s.countNode.freeTick = s.freeTick := rfl

/-! ### `openHeader` -/

@[simp] theorem State.openHeader_cfg (s : State) : s.openHeader.cfg = s.cfg := rfl
@[simp] theorem State.openHeader_cmds (s : State) : s.openHeader.cmds = s.cmds := rfl
@[simp] theorem State.openHeader_binds (s : State) : s.openHeader.binds = s.binds := rfl
@[simp] theorem State.openHeader_src (s : State) : s.openHeader.src = s.src := rfl
@[simp] theorem State.openHeader_srcPos (s : State) : s.openHeader.srcPos = s.srcPos := rfl
@[simp] theorem State.openHeader_snkBits (s : State) : s.openHeader.snkBits = s.snkBits := rfl
@[simp] theorem State.openHeader_snkBytes (s : State) : s.openHeader.snkBytes = s.snkBytes := rfl
@[simp] theorem State.openHeader_snkClosed (s : State) : s.openHeader.snkClosed = s.snkClosed := rfl
@[simp] theorem State.openHeader_run (s : State) : s.openHeader.run = s.run := rfl
@[simp] theorem State.openHeader_err (s : State) : s.openHeader.err = s.err := rfl
@[simp] theorem State.openHeader_freqValid (s : State) : s.openHeader.freqValid = s.freqValid := rfl
@[simp] theorem State.openHeader_treeState (s : State) : s.openHeader.treeState = .none := rfl
@[simp] theorem State.openHeader_codeValid (s : State) : s.openHeader.codeValid = false := rfl
@[simp] theorem State.openHeader_root (s : State) : s.openHeader.root = s.root := rfl
@[simp] theorem State.openHeader_nodeCount (s : State) : s.openHeader.nodeCount = 0#10 := rfl
@[simp] theorem State.openHeader_cur (s : State) : s.openHeader.cur = s.cur := rfl
@[simp] theorem State.openHeader_freq (s : State) : s.openHeader.freq = s.freq := rfl
@[simp] theorem State.openHeader_nodes (s : State) : s.openHeader.nodes = s.nodes := rfl
@[simp] theorem State.openHeader_codeHas (s : State) : s.openHeader.codeHas = s.codeHas := rfl
@[simp] theorem State.openHeader_codeLen (s : State) : s.openHeader.codeLen = s.codeLen := rfl
@[simp] theorem State.openHeader_codeVal (s : State) : s.openHeader.codeVal = s.codeVal := rfl
@[simp] theorem State.openHeader_inPq (s : State) : s.openHeader.inPq = s.inPq := rfl
@[simp] theorem State.openHeader_stack (s : State) : s.openHeader.stack = [] := rfl
@[simp] theorem State.openHeader_freeTick (s : State) : s.openHeader.freeTick = s.freeTick := rfl

/-! ### `writeCmd` -/

@[simp] theorem State.writeCmd_cfg (s : State) (w : Byte) : (s.writeCmd w).cfg = s.cfg := rfl
@[simp] theorem State.writeCmd_cmds (s : State) (w : Byte) : (s.writeCmd w).cmds = w :: s.cmds := rfl
@[simp] theorem State.writeCmd_binds (s : State) (w : Byte) : (s.writeCmd w).binds = s.binds := rfl
@[simp] theorem State.writeCmd_src (s : State) (w : Byte) : (s.writeCmd w).src = s.src := rfl
@[simp] theorem State.writeCmd_srcPos (s : State) (w : Byte) : (s.writeCmd w).srcPos = s.srcPos := rfl
@[simp] theorem State.writeCmd_snkBits (s : State) (w : Byte) : (s.writeCmd w).snkBits = s.snkBits := rfl
@[simp] theorem State.writeCmd_snkBytes (s : State) (w : Byte) : (s.writeCmd w).snkBytes = s.snkBytes := rfl
@[simp] theorem State.writeCmd_snkClosed (s : State) (w : Byte) : (s.writeCmd w).snkClosed = s.snkClosed := rfl
@[simp] theorem State.writeCmd_run (s : State) (w : Byte) : (s.writeCmd w).run = s.run := rfl
@[simp] theorem State.writeCmd_err (s : State) (w : Byte) : (s.writeCmd w).err = s.err := rfl
@[simp] theorem State.writeCmd_freqValid (s : State) (w : Byte) : (s.writeCmd w).freqValid = s.freqValid := rfl
@[simp] theorem State.writeCmd_treeState (s : State) (w : Byte) : (s.writeCmd w).treeState = s.treeState := rfl
@[simp] theorem State.writeCmd_codeValid (s : State) (w : Byte) : (s.writeCmd w).codeValid = s.codeValid := rfl
@[simp] theorem State.writeCmd_root (s : State) (w : Byte) : (s.writeCmd w).root = s.root := rfl
@[simp] theorem State.writeCmd_nodeCount (s : State) (w : Byte) : (s.writeCmd w).nodeCount = s.nodeCount := rfl
@[simp] theorem State.writeCmd_cur (s : State) (w : Byte) : (s.writeCmd w).cur = s.cur := rfl
@[simp] theorem State.writeCmd_freq (s : State) (w : Byte) : (s.writeCmd w).freq = s.freq := rfl
@[simp] theorem State.writeCmd_nodes (s : State) (w : Byte) : (s.writeCmd w).nodes = s.nodes := rfl
@[simp] theorem State.writeCmd_codeHas (s : State) (w : Byte) : (s.writeCmd w).codeHas = s.codeHas := rfl
@[simp] theorem State.writeCmd_codeLen (s : State) (w : Byte) : (s.writeCmd w).codeLen = s.codeLen := rfl
@[simp] theorem State.writeCmd_codeVal (s : State) (w : Byte) : (s.writeCmd w).codeVal = s.codeVal := rfl
@[simp] theorem State.writeCmd_inPq (s : State) (w : Byte) : (s.writeCmd w).inPq = s.inPq := rfl
@[simp] theorem State.writeCmd_stack (s : State) (w : Byte) : (s.writeCmd w).stack = s.stack := rfl
@[simp] theorem State.writeCmd_freeTick (s : State) (w : Byte) : (s.writeCmd w).freeTick = s.freeTick := rfl

end Sys2Proof.Machine
end

