-- ==== Sys2Proof/Laws/Ops.lean ====
section
/-!
SUPPORT. What each shared operation can do, said once: reads (`20_memory.md` R63), node memory and the priority structure
(`10_state.md` R28, R30), the ends of a command and the error entry (`60_exceptions.md` R257).
-/

namespace Sys2Proof.Machine

/-! ### Reads -/

/-- A read that finds enough bits returns them and advances (R63). -/
theorem readBits_enough {w : Nat} {s : State} (h : s.srcPos + w ≤ s.srcEnd) :
    readBits w s =
      (some (BitVec.ofNat w (val ((s.srcBits.drop s.srcPos).take w))), { s with srcPos := s.srcPos + w }) := if_pos h

/-- A read that finds too few bits returns `EOS` and moves to the end (R63). -/
theorem readBits_short {w : Nat} {s : State} (h : s.srcEnd < s.srcPos + w) :
    readBits w s = (none, { s with srcPos := s.srcEnd }) := if_neg (Nat.not_le.mpr h)

/-- A read of the bits that stand next in the source (R62). -/
theorem readBits_append {w : Nat} {s : State} {l rest : List Bool} (h : s.srcBits.drop s.srcPos = l ++ rest)
    (hw : l.length = w) : s.srcPos ≤ s.srcEnd →
      readBits w s = (some (BitVec.ofNat w (val l)), { s with srcPos := s.srcPos + w }) := by
  intro hp
  have hl := congrArg List.length h
  rw [List.length_drop, srcBits_length, List.length_append] at hl
  rw [readBits_enough (by omega), h, ← hw, List.take_left]

/-- After a read the bits that stand next are those after the bits read (R63). -/
theorem drop_srcPos_add {s : State} {l rest : List Bool} (h : s.srcBits.drop s.srcPos = l ++ rest) :
    s.srcBits.drop (s.srcPos + l.length) = rest := by
  rw [← List.drop_drop, h, List.drop_left]

/-- A read changes nothing but the position, which stays inside the source (R63, R64). -/
theorem readBits_state (w : Nat) (s : State) :
    ∃ p, (readBits w s).2 = { s with srcPos := p } ∧ (s.srcPos ≤ s.srcEnd → s.srcPos ≤ p ∧ p ≤ s.srcEnd) := by
  by_cases h : s.srcPos + w ≤ s.srcEnd
  · exact ⟨s.srcPos + w, by rw [readBits_enough h], fun _ => ⟨Nat.le_add_right _ _, h⟩⟩
  · exact ⟨s.srcEnd, by rw [readBits_short (Nat.lt_of_not_le h)], fun hp => ⟨hp, Nat.le_refl _⟩⟩

@[simp] theorem srcBits_setPos (s : State) (p : Nat) : { s with srcPos := p }.srcBits = s.srcBits := rfl

@[simp] theorem srcEnd_setPos (s : State) (p : Nat) : { s with srcPos := p }.srcEnd = s.srcEnd := rfl

/-! ### Node memory and the priority structure -/

@[simp] theorem node?_setNode (s : State) (i : Fin 513) (n : Node) (k : NodeIdx) :
    (s.setNode i n).node? k = if i.val = k.toNat then some n else s.node? k := by
  simp only [State.node?, State.setNode_nodes, Vector.getElem?_set]

@[simp] theorem weightOf_setNode (s : State) (i : Fin 513) (n : Node) (k : Nat) :
    (s.setNode i n).weightOf k = if i.val = k then n.weight else s.weightOf k := by
  simp only [State.weightOf, State.setNode_nodes, Vector.getElem?_set]
  split <;> rfl

/-- The members of the priority structure are the indices whose bit is set (R30). -/
@[simp] theorem mem_members {s : State} {k : Nat} : k ∈ s.members ↔ s.inPq.getLsbD k = true := by
  simp only [State.members, List.mem_filter, List.mem_range, and_iff_right_iff_imp]
  exact fun h => BitVec.lt_of_getLsbD h

theorem members_nodup (s : State) : s.members.Nodup := List.nodup_range.filter _

theorem members_eq_nil_iff {s : State} : s.members = [] ↔ s.inPq = 0#513 := by
  constructor
  · intro h
    refine BitVec.eq_of_getLsbD_eq fun k _ => ?_
    have hk : k ∉ s.members := by rw [h]; exact List.not_mem_nil
    rw [mem_members] at hk
    simpa using hk
  · intro h
    refine List.eq_nil_iff_forall_not_mem.mpr fun k hk => ?_
    rw [mem_members, h] at hk
    simp at hk

/-- Insertion adds one member (R130). -/
theorem mem_pqInsert {s : State} {i k : Nat} (h : i < 513) :
    k ∈ (s.pqInsert i).members ↔ k = i ∨ k ∈ s.members := by
  rw [mem_members, mem_members, State.pqInsert_inPq, BitVec.getLsbD_or, BitVec.getLsbD_twoPow, Bool.or_eq_true,
    Bool.and_eq_true, decide_eq_true_eq, decide_eq_true_eq]
  constructor
  · rintro (hk | ⟨-, rfl⟩)
    · exact .inr hk
    · exact .inl rfl
  · rintro (rfl | hk)
    · exact .inr ⟨h, rfl⟩
    · exact .inl hk

/-- Removal takes one member away (R133). -/
theorem mem_pqRemove {s : State} {i k : Nat} : k ∈ (s.pqRemove i).members ↔ k ≠ i ∧ k ∈ s.members := by
  rw [mem_members, mem_members, State.pqRemove_inPq, BitVec.getLsbD_and, BitVec.getLsbD_not, BitVec.getLsbD_twoPow]
  constructor
  · intro h
    simp only [Bool.and_eq_true, Bool.not_eq_true', Bool.and_eq_false_iff, decide_eq_true_eq,
      decide_eq_false_iff_not] at h
    obtain ⟨hk, h1, h2⟩ := h
    refine ⟨fun e => ?_, hk⟩
    subst e
    rcases h2 with h2 | h2
    · exact h2 h1
    · exact h2 rfl
  · rintro ⟨hne, hk⟩
    have := BitVec.lt_of_getLsbD hk
    simp [hk, this, Ne.symm hne]

@[simp] theorem entry?_eq_some {i : NodeIdx} {e : Fin 513} : entry? i = some e ↔ i.toNat = e.val := by
  unfold entry?
  split
  · rename_i h
    simp [Fin.ext_iff]
  · rename_i h
    simp only [reduceCtorEq, false_iff]
    have := e.isLt
    omega

@[simp] theorem symbol?_eq_some {v : SymField} {y : Symbol} : symbol? v = some y ↔ v.toNat = y.val := by
  unfold symbol?
  split
  · rename_i h
    simp [Fin.ext_iff]
  · rename_i h
    simp only [reduceCtorEq, false_iff]
    have := y.isLt
    omega

/-! ### The ends of a command -/

@[simp] theorem andThen_ok (s : State) (k : State → Ended) : (Ended.ok s).andThen k = k s := rfl

@[simp] theorem andThen_raised (why : Reason) (s : State) (k : State → Ended) :
    (Ended.raised why s).andThen k = .raised why s := rfl

@[simp] theorem andThen_fault (f : Fault) (k : State → Ended) : (Ended.fault f).andThen k = .fault f := rfl

@[simp] theorem andThen_refused (r : Refusal) (k : State → Ended) : (Ended.refused r).andThen k = .refused r := rfl

/-- Two lines end well exactly when the first does and then the second does. -/
theorem andThen_eq_ok {e : Ended} {k : State → Ended} {u : State} :
    e.andThen k = .ok u ↔ ∃ s, e = .ok s ∧ k s = .ok u := by
  cases e <;> simp

/-- Two lines raise when the first raises, or ends well before the second raises. -/
theorem andThen_eq_raised {e : Ended} {k : State → Ended} {why : Reason} {u : State} :
    e.andThen k = .raised why u ↔ e = .raised why u ∨ ∃ s, e = .ok s ∧ k s = .raised why u := by
  cases e <;> simp

theorem andThen_assoc (e : Ended) (k l : State → Ended) :
    (e.andThen k).andThen l = e.andThen fun s => (k s).andThen l := by
  cases e <;> rfl

@[simp] theorem require_true (why : Reason) (s : State) : require true why s = .ok s := rfl

@[simp] theorem require_false (why : Reason) (s : State) : require false why s = .raised why s := rfl

@[simp] theorem finish_raised (why : Reason) (s : State) : finish (.raised why s) = .next (errorEntry why s) := rfl

@[simp] theorem finish_fault (f : Fault) : finish (.fault f) = .fault f := rfl

@[simp] theorem finish_refused (r : Refusal) : finish (.refused r) = .refused r := rfl

/-- A command that ends well in `IDLE` leaves the state its last line left (R25). -/
theorem finish_ok {s : State} (h : s.run = .idle) : finish (.ok s) = .next s := by
  cases s
  subst h
  rfl

theorem issue_idle {body : State → Ended} {s : State} (h : s.run = .idle) : issue body s = finish (body s) := by
  simp only [issue, h]

/-- A refused command changes nothing (R258). -/
theorem issue_error {body : State → Ended} {s : State} (h : s.run = .error) : issue body s = .next s := by
  simp only [issue, h]

theorem issue_busy {body : State → Ended} {s : State} {r : Reader} (h : s.run = .busy r) : issue body s = .next s := by
  simp only [issue, h]

/-! ### The error entry -/

/-- The error entry on an open sink (R257, R68). -/
theorem errorEntry_open {why : Reason} {s : State} (h : s.snkClosed = false) :
    errorEntry why s =
      { s with
        err := why, run := .error, stack := []
        snkBits := s.snkBits ++ padding s.snkBits.length
        snkBytes := some (packBytes (s.snkBits ++ padding s.snkBits.length))
        snkClosed := true } := by
  simp only [errorEntry, State.stop, h, State.closeSink, Bool.false_eq_true, if_false]

/-- The error entry on a closed sink (R257). -/
theorem errorEntry_closed {why : Reason} {s : State} (h : s.snkClosed = true) :
    errorEntry why s = { s with err := why, run := .error, stack := [] } := by
  simp only [errorEntry, State.stop, h, if_true]

@[simp] theorem errorEntry_run (why : Reason) (s : State) : (errorEntry why s).run = .error := by
  unfold errorEntry; split <;> rfl

@[simp] theorem errorEntry_err (why : Reason) (s : State) : (errorEntry why s).err = why := by
  unfold errorEntry; split <;> rfl

@[simp] theorem errorEntry_snkClosed (why : Reason) (s : State) : (errorEntry why s).snkClosed = true := by
  unfold errorEntry
  split
  · rename_i h; exact h
  · rfl

@[simp] theorem errorEntry_stack (why : Reason) (s : State) : (errorEntry why s).stack = [] := by
  unfold errorEntry; split <;> rfl

/-- What the error entry keeps (R257): every table, flag and register but those it writes. -/
theorem errorEntry_keeps (why : Reason) (s : State) :
    errorEntry why s =
      { s with
        err := why, run := .error, stack := [], snkClosed := true
        snkBits := (errorEntry why s).snkBits, snkBytes := (errorEntry why s).snkBytes } := by
  cases h : s.snkClosed
  · rw [errorEntry_open h]
  · rw [errorEntry_closed h]
    cases s
    subst h
    rfl

end Sys2Proof.Machine
end

