-- ==== Sys2Proof/Laws/PerInstr.lean ====
section
/-!
SUPPORT. A statement for every row of the opcode table, one lemma per constructor: how many bits its encoding has
(`30_encoding.md` R91, R92, R100).
-/

namespace Sys2Proof.Laws.EncodedLength

/-- The encoding has the length the table gives: 8 bits for a command, 32 for the magic field, 1 for an internal record
and 10 for a leaf record. -/
def Statement (i : Instr) : Prop :=
  (encode i).length =
    match i with
    | .magicWord _ => 32
    | .hdrInternal => 1
    | .hdrLeaf _ => 10
    | .fcount | .tbuild | .cgen | .wmagic | .whdr | .rewind | .encode | .close => 8
    | .rmagic | .rhdr | .decode | .compress | .decompress | .sreset => 8

theorem fcount : Statement .fcount := rfl

theorem tbuild : Statement .tbuild := rfl

theorem cgen : Statement .cgen := rfl

theorem wmagic : Statement .wmagic := rfl

theorem whdr : Statement .whdr := rfl

theorem rewind : Statement .rewind := rfl

theorem encode : Statement .encode := rfl

theorem close : Statement .close := rfl

theorem rmagic : Statement .rmagic := rfl

theorem rhdr : Statement .rhdr := rfl

theorem decode : Statement .decode := rfl

theorem compress : Statement .compress := rfl

theorem decompress : Statement .decompress := rfl

theorem sreset : Statement .sreset := rfl

theorem magicWord (m : BitVec 32) : Statement (.magicWord m) := bits_length 32 m.toNat

theorem hdrInternal : Statement .hdrInternal := rfl

theorem hdrLeaf (sym : SymField) : Statement (.hdrLeaf sym) := congrArg (· + 1) (bits_length 9 sym.toNat)

end Sys2Proof.Laws.EncodedLength
end

