-- ==== Sys2Proof/Laws/Shapes.lean ====
section
/-!
SUPPORT. Laws of tree shapes: a header is its records (`30_encoding.md` R92, R93), and a tree of n leaves has 2 n − 1 of
them.
-/

namespace Sys2Proof.Machine

theorem Shape.leaves_pos (t : Shape) : 1 ≤ t.leaves := by
  induction t with
  | leaf v => exact Nat.le_refl 1
  | node l r hl hr => simp only [Shape.leaves]; omega

/-- The serialisation of a tree is the encodings of its records, in order. -/
theorem Shape.ser_eq_records (t : Shape) : t.ser = t.records.flatMap encode := by
  induction t with
  | leaf v => simp [Shape.ser, Shape.records, encode]
  | node l r hl hr => simp [Shape.ser, Shape.records, encode, hl, hr]

theorem Shape.records_length (t : Shape) : t.records.length = 2 * t.leaves - 1 := by
  induction t with
  | leaf v => rfl
  | node l r hl hr =>
    have := l.leaves_pos
    have := r.leaves_pos
    simp only [Shape.records, Shape.leaves, List.length_cons, List.length_append]
    omega

end Sys2Proof.Machine
end

