-- ==== Sys2Proof/Tests/Slice0.lean ====
section
/-!
SUPPORT. Tests of single steps against the spec's own vectors (`95_test_vectors.md`, the vector named in each comment), and one
witness for the hypotheses of each statement.
-/

namespace Sys2Proof.Tests

open Sys2Proof.Machine

/-! ### Small helpers -/

/-- A run answers a next state. -/
def isNext (o : Host.Outcome State Fault Refusal) : Bool :=
  match o with
  | .next _ => true
  | .fault _ | .refused _ => false

/-- The next state, or the reset state where there is none. -/
def after (o : Host.Outcome State Fault Refusal) : State :=
  match o with
  | .next s => s
  | .fault _ | .refused _ => State.reset

theorem eq_next_after {o : Host.Outcome State Fault Refusal} (h : isNext o = true) : o = .next (after o) := by
  cases o with
  | next s => rfl
  | fault r => exact Bool.noConfusion h
  | refused r => exact Bool.noConfusion h

/-- A launch with the default parameters. -/
def run (source : List Byte) (w : Byte) : State := after (step (launch Config.standard source [w]))

/-- A leaf entry. -/
def leafNode (v : SymField) (w : Nat) : Node := ⟨true, v, 1023#10, 1023#10, w⟩

/-- An internal entry. -/
def innerNode (l r : NodeIdx) (w : Nat) : Node := ⟨false, 0#9, l, r, w⟩

/-- Node memory of V1: leaves 65, 66, 256 and two merges. -/
def scenarioNodes : Vector Node 513 :=
  ((((Vector.replicate 513 Node.blank).set 0 (leafNode 65#9 3)).set 1 (leafNode 66#9 1)).set 2 (leafNode 256#9 1)).set 3
    (innerNode 1#10 2#10 2) |>.set 4 (innerNode 3#10 0#10 5)

/-- V1's tree. -/
def scenarioTree : ITree := .node 4#10 (.node 3#10 (.leaf 1#10 66#9) (.leaf 2#10 256#9)) (.leaf 0#10 65#9)

/-- The state after `FCOUNT; TBUILD` on V1's source. -/
def built : State :=
  { launch Config.standard [0x41#8, 0x41#8, 0x41#8, 0x42#8] [] with
    nodes := scenarioNodes, root := 4#10, nodeCount := 5#10, treeState := .built, srcPos := 32 }

/-- V1's code table: 65 = "1", 66 = "00", 256 = "01". -/
def coded : State :=
  { ((built.setCode 65 [true]).setCode 66 [false, false]).setCode 256 [false, true] with codeValid := true, srcPos := 0 }

/-- The parsed tree of V50 with its payload next: "1110001" and one bit of padding. -/
def parsed : State :=
  { launch Config.standard [0xE2#8] [] with
    nodes := ((((Vector.replicate 513 Node.blank).set 0 (innerNode 1#10 4#10 0)).set 1 (innerNode 2#10 3#10 0)).set 2
      (leafNode 66#9 0)).set 3 (leafNode 256#9 0) |>.set 4 (leafNode 65#9 0)
    root := 0#10, nodeCount := 5#10, treeState := .parsed }

/-- V50's tree. -/
def parsedTree : ITree := .node 0#10 (.node 1#10 (.leaf 2#10 66#9) (.leaf 3#10 256#9)) (.leaf 4#10 65#9)

/-- A one-leaf tree. -/
def single (v : SymField) : State :=
  { State.reset with nodes := (Vector.replicate 513 Node.blank).set 0 (leafNode v 0), nodeCount := 1#10, treeState := .parsed }

/-- A valid frequency table with counts `a` for 65, `b` for 66 and 1 for the sentinel. -/
def counted (a b : Nat) : State :=
  { State.reset with
    freq := (((Vector.replicate 257 0).set 65 a).set 66 b).set 256 1, freqValid := true }

/-- In `ERROR` with a closed empty sink. -/
def failed : State := { State.reset with run := .error, err := .badMagic, snkClosed := true, snkBytes := some [] }

/-- While the header reader waits, with the given source. -/
def reading (source : List Byte) : State := { State.reset with run := .busy .header, src := source }

/-! ### Well-formedness -/

theorem test_wellformed_refuses_reserved_symbol : (Instr.hdrLeaf 257#9).wellFormed = false := by decide

theorem test_wellformed_accepts_sentinel : (Instr.hdrLeaf 256#9).wellFormed = true := by decide

/-! ### Decoding: words written out from R101, R91 and R92 -/

theorem test_decode_fcount : decodeCmd 0b00000001#8 = .ok .fcount := rfl
theorem test_decode_tbuild : decodeCmd 0b00000010#8 = .ok .tbuild := rfl
theorem test_decode_cgen : decodeCmd 0b00000011#8 = .ok .cgen := rfl
theorem test_decode_wmagic : decodeCmd 0b00000100#8 = .ok .wmagic := rfl
theorem test_decode_whdr : decodeCmd 0b00000101#8 = .ok .whdr := rfl
theorem test_decode_rewind : decodeCmd 0b00000110#8 = .ok .rewind := rfl
theorem test_decode_encode : decodeCmd 0b00000111#8 = .ok .encode := rfl
theorem test_decode_close : decodeCmd 0b00001000#8 = .ok .close := rfl
theorem test_decode_rmagic : decodeCmd 0b00001001#8 = .ok .rmagic := rfl
theorem test_decode_rhdr : decodeCmd 0b00001010#8 = .ok .rhdr := rfl
theorem test_decode_decode : decodeCmd 0b00001011#8 = .ok .decode := rfl
theorem test_decode_compress : decodeCmd 0b00001100#8 = .ok .compress := rfl
theorem test_decode_decompress : decodeCmd 0b00001101#8 = .ok .decompress := rfl
theorem test_decode_sreset : decodeCmd 0b00001111#8 = .ok .sreset := rfl
theorem test_decode_op_0 : decodeCmd 0b00000000#8 = .error (.reservedOp 0x00#8) := rfl
theorem test_decode_op_e : decodeCmd 0b00001110#8 = .error (.reservedOp 0x0E#8) := rfl
theorem test_decode_zero_field : decodeCmd 0b00010001#8 = .error (.zeroField 0x11#8) := rfl

/-- R92: "0". -/
theorem test_decode_internal : decode .header [false, true] = .ok (.hdrInternal, [true]) := rfl

/-- V42: "1001000010" is the leaf of 66. -/
theorem test_decode_leaf :
    decode .header [true, false, false, true, false, false, false, false, true, false] = .ok (.hdrLeaf 66#9, []) := rfl

/-- R91: the bits of 0xFACE8201, most significant first. -/
theorem test_decode_magic :
    decode .stream32
        [true, true, true, true, true, false, true, false, true, true, false, false, true, true, true, false,
          true, false, false, false, false, false, true, false, false, false, false, false, false, false, false, true] =
      .ok (.magicWord 0xFACE8201#32, []) := rfl

/-- V40: `ser(Leaf(256))` = "1100000000". -/
theorem test_encode_leaf :
    encode (.hdrLeaf 256#9) = [true, true, false, false, false, false, false, false, false, false] := rfl

theorem test_table_rows :
    decodeTableWord 8 0x0F = some .sreset ∧ decodeTableWord 8 0x00 = some .hdrInternal ∧
      decodeTableWord 16 0x242 = some (.hdrLeaf 66#9) ∧ decodeTableWord 8 0x10 = none := by decide

/-! ### Stream primitives -/

/-- V20: a read across a byte boundary, and `EOS` with 6 of 8 bits left. -/
theorem test_read_across_bytes :
    (readBits 9 { State.reset with src := [0xA5#8, 0x3C#8], srcPos := 1 }).1 = some 148#9 ∧
      (readBits 8 { State.reset with src := [0xA5#8, 0x3C#8], srcPos := 10 }).1 = none ∧
      (readBits 8 { State.reset with src := [0xA5#8, 0x3C#8], srcPos := 10 }).2.srcPos = 16 := by decide +kernel

/-- V23: writes and close. -/
theorem test_write_and_close :
    (((State.reset.writeBits 3 5).writeBits 0 0).writeBits 9 256).closeSink.snkBytes = some [0xB0#8, 0x00#8] := by
  decide +kernel

/-! ### Commands -/

/-- V26. -/
theorem test_fcount_counts :
    (after (exec .fcount (launch Config.standard [0x41#8, 0x41#8, 0x41#8, 0x42#8] []))).freq[65] = 3 ∧
      (after (exec .fcount (launch Config.standard [0x41#8, 0x41#8, 0x41#8, 0x42#8] []))).status = 0x04#8 := by
  decide +kernel

/-- V29, second `FCOUNT`: nothing left to count. -/
theorem test_fcount_at_end :
    (after (exec .fcount { launch Config.standard [0x41#8, 0x41#8] [] with srcPos := 16 })).freq[65] = 0 ∧
      (after (exec .fcount { launch Config.standard [0x41#8, 0x41#8] [] with srcPos := 16 })).freq[256] = 1 := by
  decide +kernel

/-- V1: the last merge takes node 3 left and node 0 right. -/
theorem test_tbuild_scenario :
    let u := after (exec .tbuild (counted 3 1))
    (u.entry 4).left = 3#10 ∧ (u.entry 4).right = 0#10 ∧ (u.entry 4).weight = 5 ∧ u.root = 4#10 ∧ u.nodeCount = 5#10 := by
  decide +kernel

/-- V13: a leaf goes before an internal node of the same weight. -/
theorem test_tbuild_leaf_before_internal :
    let u := after (exec .tbuild (counted 2 1))
    (u.entry 4).left = 0#10 ∧ (u.entry 4).right = 3#10 ∧ u.status = 0x08#8 := by
  decide +kernel

/-- V1: 66 = "00", 256 = "01". -/
theorem test_cgen_scenario :
    let u := after (exec .cgen built)
    u.codeOf 66 = [false, false] ∧ u.codeOf 256 = [false, true] ∧ u.codeHas[67] = false ∧ u.status = 0x28#8 := by
  decide +kernel

/-- V34: a parsed tree is refused. -/
theorem test_cgen_refuses_parsed :
    (after (exec .cgen parsed)).status = 0x52#8 ∧ (after (exec .cgen parsed)).errWord = 0x08#8 := by decide +kernel

/-- V49: `WMAGIC; CLOSE`. -/
theorem test_wmagic_close :
    (after (exec .close (after (exec .wmagic State.reset)))).snkBytes = some [0xFA#8, 0xCE#8, 0x82#8, 0x01#8] := by
  decide +kernel

/-- V44: the header of V1's tree. -/
theorem test_whdr_scenario :
    (after (exec .close (after (exec .whdr built)))).snkBytes = some [0x24#8, 0x2C#8, 0x02#8, 0x41#8] := by decide +kernel

/-- R191's example. -/
theorem test_rewind : (after (exec .rewind built)).srcPos = 0 := by decide +kernel

/-- V1: the payload "1110001". -/
theorem test_encode_payload :
    (after (exec .encode coded)).snkBits = [true, true, true, false, false, false, true] ∧
      (after (exec .encode coded)).status = 0x08#8 := by decide +kernel

/-- V47: a byte without a code. -/
theorem test_encode_no_code :
    let u := after (exec .encode { coded with src := [0xFA#8, 0xCE#8] })
    u.status = 0x6A#8 ∧ u.errWord = 0x07#8 ∧ u.srcPos = 8 ∧ u.snkBytes = some [] := by decide +kernel

/-- V49: the second `CLOSE` raises. -/
theorem test_close_twice :
    (after (exec .close (after (exec .close State.reset)))).errWord = 0x08#8 := by decide +kernel

/-- V61: three bytes hold no magic number. -/
theorem test_rmagic_short :
    let u := after (exec .rmagic (launch Config.standard [0xFA#8, 0xCE#8, 0x82#8] []))
    u.errWord = 0x01#8 ∧ u.srcPos = 24 ∧ u.status = 0x42#8 := by decide +kernel

/-- V60: the last bit is wrong. -/
theorem test_rmagic_mismatch :
    let u := after (exec .rmagic (launch Config.standard [0xFA#8, 0xCE#8, 0x82#8, 0x00#8, 0x24#8] []))
    u.errWord = 0x01#8 ∧ u.srcPos = 32 := by decide +kernel

/-- V50: the header of V1's tree in preorder. -/
theorem test_rhdr_scenario :
    let u := after (exec .rhdr (launch Config.standard [0x24#8, 0x2C#8, 0x02#8, 0x41#8] []))
    (u.entry 0).left = 1#10 ∧ (u.entry 0).right = 4#10 ∧ (u.entry 3).sym = 256#9 ∧ u.nodeCount = 5#10 ∧ u.srcPos = 32 := by
  decide +kernel

/-- V65: `HDR_TRUNCATED` with seven nodes numbered. -/
theorem test_rhdr_truncated :
    let u := after (exec .rhdr (launch Config.standard [0x40#8, 0x00#8] []))
    u.errWord = 0x02#8 ∧ u.nodeCount = 7#10 ∧ u.srcPos = 16 := by decide +kernel

/-- V78: three 41, one 42, stop after seven bits. -/
theorem test_decode_walk :
    (after (exec .decode parsed)).snkBits = [0x41#8, 0x41#8, 0x41#8, 0x42#8].flatMap byteBits ∧
      (after (exec .decode parsed)).srcPos = 7 := by decide +kernel

/-- V71: a single leaf that is not the sentinel. -/
theorem test_decode_degenerate :
    (after (exec .decode (single 65#9))).errWord = 0x05#8 ∧ (after (exec .decode (single 65#9))).status = 0x52#8 := by
  decide +kernel

/-- V2: the empty input. -/
theorem test_compress_empty : (run [] 0x0C#8).snkBytes = some [0xFA#8, 0xCE#8, 0x82#8, 0x01#8, 0xC0#8, 0x00#8] := by
  decide +kernel

/-- V3: one byte, two leaves that tie. -/
theorem test_compress_one_byte :
    (run [0x00#8] 0x0C#8).snkBytes = some [0xFA#8, 0xCE#8, 0x82#8, 0x01#8, 0x40#8, 0x18#8, 0x02#8] := by decide +kernel

/-- V52: the inverse of V3. -/
theorem test_decompress_one_byte :
    (run [0xFA#8, 0xCE#8, 0x82#8, 0x01#8, 0x40#8, 0x18#8, 0x02#8] 0x0D#8).snkBytes = some [0x00#8] := by decide +kernel

/-- V66: the payload byte is cut off. -/
theorem test_decompress_truncated :
    let u := run [0xFA#8, 0xCE#8, 0x82#8, 0x01#8, 0x24#8, 0x2C#8, 0x02#8, 0x41#8] 0x0D#8
    u.status = 0x52#8 ∧ u.errWord = 0x03#8 ∧ u.srcPos = 64 ∧ u.snkBytes = some [] := by decide +kernel

/-- V81: `SRESET` leaves an error. -/
theorem test_sreset : (after (exec .sreset failed)).status = 0x00#8 ∧ (after (exec .sreset failed)).errWord = 0x00#8 := by
  decide +kernel

/-- V80: an illegal word. -/
theorem test_illegal_word : (run [] 0x0E#8).status = 0x42#8 ∧ (run [] 0x0E#8).errWord = 0x09#8 := by decide +kernel

/-- V82: the first error is kept. -/
theorem test_first_error_kept :
    (after (step { failed with cmds := [0x00#8] })).errWord = 0x01#8 ∧
      (after (step { failed with cmds := [0x0B#8] })).errWord = 0x01#8 := by decide +kernel

/-- R92, R171: a leaf record is the whole header. -/
theorem test_leaf_record :
    let u := after (step (State.reset.withFetchWord 16 0x300))
    u.treeState = .parsed ∧ u.run = .idle ∧ (u.entry 0).sym = 256#9 ∧ u.srcPos = 10 := by decide +kernel

/-- V70: 257 is the smallest reserved value. -/
theorem test_reserved_leaf_record : (after (step (State.reset.withFetchWord 16 0x301))).errWord = 0x04#8 := by
  decide +kernel

/-- R171: an internal record is numbered and waits. -/
theorem test_internal_record :
    let u := after (step (State.reset.withFetchWord 8 0))
    u.stack = [⟨0#10, none⟩] ∧ u.nodeCount = 1#10 ∧ u.srcPos = 1 := by decide +kernel

/-- V60: a wrong magic field. -/
theorem test_magic_field :
    (after (step (State.reset.withFetchWord 32 0xFACE8200))).errWord = 0x01#8 ∧
      (after (step (State.reset.withFetchWord 32 0xFACE8201))).run = .idle := by decide +kernel

/-! ### Witnesses: a state and operands that meet the hypotheses of each statement -/

theorem witness_DecodedBitsAreTheEncoding :
    decode .cmd8 [false, false, false, false, false, false, false, true, true] = .ok (.fcount, [true]) := rfl

theorem witness_HeadersParseInOneWay :
    (Shape.leaf 256#9).ser ++ [true] = (Shape.leaf 256#9).ser ++ [true] ∧ (Shape.leaf 256#9).leaves ≤ 257 :=
  ⟨rfl, by decide⟩

theorem witness_StepRunsTheCommand :
    (launch Config.standard [] [0x01#8]).cmds = [0x01#8] ∧ decodeCmd 0x01#8 = .ok .fcount := ⟨rfl, rfl⟩

theorem witness_StepRunsTheStreamField_header :
    (reading [0x00#8]).run = .busy .header ∧ (reading [0x00#8]).cmds = [] ∧
      (reading [0x00#8]).nodeCount.toNat ≠ Config.nodeCap ∧
      decode .header ((reading [0x00#8]).srcBits.drop (reading [0x00#8]).srcPos) =
        .ok (.hdrInternal, [false, false, false, false, false, false, false]) :=
  ⟨rfl, rfl, by decide, rfl⟩

theorem witness_StepRunsTheStreamField_magic :
    let s := { State.reset with run := .busy .magic, src := [0xFA#8, 0xCE#8, 0x82#8, 0x01#8] }
    s.run = .busy .magic ∧ s.cmds = [] ∧ s.nodeCount.toNat ≠ Config.nodeCap ∧
      decode .stream32 (s.srcBits.drop s.srcPos) = .ok (.magicWord 0xFACE8201#32, []) :=
  ⟨rfl, rfl, by decide, rfl⟩

theorem witness_IllegalWordsRaise :
    0x00#8 ∉ commandWords ∧ 0x0E#8 ∉ commandWords ∧ 0x10#8 ∉ commandWords ∧ 0xFF#8 ∉ commandWords ∧
      (launch Config.standard [] [0x0E#8]).run = .idle ∧ { failed with cmds := [0x0E#8] }.run ≠ .idle ∧
      { reading [] with cmds := [0x0E#8] }.run ≠ .idle := by decide

theorem witness_IdleMachineWaits :
    State.reset.cmds = [] ∧ ∀ r, State.reset.run ≠ .busy r := ⟨rfl, fun _ h => RunState.noConfusion h⟩

theorem witness_ErrorIsSticky :
    failed.run = .error ∧ Instr.hdrInternal ≠ .sreset ∧ { failed with cmds := [0x0D#8] }.cmds = 0x0D#8 :: [] ∧
      0x0D#8 ≠ 0x0F#8 := by decide

theorem witness_BusyIgnoresCommandWrites :
    { reading [] with cmds := [0x0F#8] }.run = .busy .header ∧ { reading [] with cmds := [0x0F#8] }.cmds = 0x0F#8 :: [] := by
  decide

theorem witness_ResetAndSresetState : State.reset.run = .idle ∧ failed.run = .error ∧ AtReset State.reset ∧
    State.reset.cmds = [] := by decide +kernel

theorem witness_StatusAndErrLayout :
    State.reset.run = .idle ∧ (reading []).run = .busy .header ∧ failed.run = .error ∧ State.reset.treeState = .none ∧
      built.treeState = .built ∧ parsed.treeState = .parsed := by decide

theorem witness_StatusAndErrLayout_reasons : ∀ e : Reason, { State.reset with err := e }.err = e := fun _ => rfl

theorem witness_ErrorEntryEffect : failed.snkClosed = true ∧ State.reset.snkClosed = false := by decide

theorem witness_PreconditionFailuresRaise :
    State.reset.run = .idle ∧ State.reset.freqValid = false ∧ parsed.treeState ≠ .built ∧
      State.reset.treeState = .none ∧ State.reset.codeValid = false ∧ { coded with snkClosed := true }.run = .idle ∧
      { coded with snkClosed := true }.snkClosed = true := by decide

theorem witness_ReadBitsResult :
    { State.reset with src := [0xA5#8], srcPos := 0 }.srcPos + 8 ≤ 8 * [0xA5#8].length ∧
      8 * [0xA5#8].length < { State.reset with src := [0xA5#8], srcPos := 0 }.srcPos + 9 := by decide

theorem witness_EndOfStreamIsSticky : readBits 1 State.reset = (none, State.reset) ∧ 1 ≤ 1 ∧
    State.reset.srcPos ≤ 8 * State.reset.src.length := ⟨rfl, Nat.le_refl 1, Nat.le_refl 0⟩

theorem witness_WriteBitsResult : 256 < 2 ^ 9 := by decide

theorem witness_FcountResult :
    let s := launch Config.standard [0x41#8] []
    s.run = .idle ∧ s.src.length ≤ s.cfg.maxLen ∧ s.srcPos = 0 := by decide +kernel

theorem witness_OverlongSourceIsRefused :
    let s := launch ⟨0#32, 1⟩ [0x41#8] []
    s.run = .idle ∧ s.cfg.maxLen < s.src.length := by decide

theorem witness_ExtractMinTakesTheLeast :
    { State.reset with inPq := 3#513 }.inPq ≠ 0#513 ∧ { State.reset with inPq := 3#513 }.inPq.getLsbD 1 = true ∧ 1 ≠ 0 := by
  decide +kernel

/-- For `TbuildResult`, `TbuildIsTheGreedyMerge` and `MergeWeightsNeverDecrease`. -/
theorem witness_Tbuild :
    (counted 3 1).run = .idle ∧ (counted 3 1).freqValid = true ∧ 0 < (counted 3 1).freq[Config.eofSymbol] ∧
      (counted 3 1).inPq = 0#513 := by decide +kernel

theorem witness_TbuildResult_leaf : (leafList (counted 3 1).freq)[2]? = some (1, .leaf 256#9) := by decide +kernel

theorem witness_MergeWeightsNeverDecrease :
    exec .tbuild (counted 3 1) = .next (after (exec .tbuild (counted 3 1))) ∧
      (leafList (counted 3 1).freq).length ≤ 3 ∧ 3 + 1 < (after (exec .tbuild (counted 3 1))).nodeCount.toNat :=
  ⟨eq_next_after (by decide +kernel), by decide +kernel, by decide +kernel⟩

theorem witness_SmallTreeShapes_none :
    (counted 0 0).run = .idle ∧ (counted 0 0).freqValid = true ∧ (counted 0 0).inPq = 0#513 ∧
      (counted 0 0).freq[Config.eofSymbol] = 1 ∧ ∀ b : Byte, (counted 0 0).freq[dataSymbol b] = 0 := by decide +kernel

theorem witness_SmallTreeShapes_one :
    0 < (counted 1 0).freq[dataSymbol 65#8] ∧ (counted 1 0).freq[dataSymbol 65#8] = 1 ∧
      (counted 2 0).freq[dataSymbol 65#8] ≠ 1 ∧
      (∀ b : Byte, b ≠ 65#8 → (counted 1 0).freq[dataSymbol b] = 0) ∧
      ∀ b : Byte, b ≠ 65#8 → (counted 2 0).freq[dataSymbol b] = 0 := by decide +kernel

theorem witness_CgenResult :
    built.run = .idle ∧ built.treeState = .built ∧ HoldsTree built scenarioTree ∧ scenarioTree.shape.syms.Nodup := by
  decide +kernel

theorem witness_CodesArePrefixFree :
    exec .cgen built = .next (after (exec .cgen built)) ∧ (after (exec .cgen built)).codeHas[65] = true ∧
      (after (exec .cgen built)).codeHas[66] = true ∧ (65 : Symbol) ≠ 66 :=
  ⟨eq_next_after (by decide +kernel), by decide +kernel, by decide +kernel, by decide⟩

theorem witness_WhdrResult :
    parsed.run = .idle ∧ parsed.treeState ≠ .none ∧ parsed.snkClosed = false ∧ HoldsTree parsed parsedTree ∧
      ParsedNumbering parsed parsedTree := by decide +kernel

theorem witness_RmagicResult :
    let s := launch Config.standard [0xFA#8, 0xCE#8, 0x82#8, 0x01#8] []
    let z := launch Config.standard [0xFA#8, 0xCE#8, 0x82#8] []
    s.run = .idle ∧ s.srcBits.drop s.srcPos = bits 32 (0xFACE8201#32).toNat ++ [] ∧ 0xFACE8201#32 = s.cfg.magic ∧
      0#32 ≠ s.cfg.magic ∧ (z.srcBits.drop z.srcPos).length < 32 := by decide +kernel

theorem witness_RhdrReadsTheTree :
    let s := launch Config.standard [0xC0#8, 0x00#8] []
    s.run = .idle ∧ (Shape.leaf 256#9).leaves ≤ 257 ∧ (Shape.leaf 256#9).symbolsOk ∧
      s.srcBits.drop s.srcPos = (Shape.leaf 256#9).ser ++ List.replicate 6 false := by decide +kernel

/-- A shape whose header begins with `n` internal records and then the leaf record of `v`. -/
def spine (v : SymField) : Nat → Shape
  | 0 => .leaf v
  | n + 1 => .node (spine v n) (.leaf 0#9)

/-- A leaf record cut short after eight bits. -/
theorem witness_RhdrTruncated_leaf :
    let s := launch Config.standard [0xFF#8] []
    s.run = .idle ∧ (Shape.leaf 511#9).records[0]? = some (.hdrLeaf 511#9) ∧
      RecordsOk ((Shape.leaf 511#9).records.take 0) ∧ List.replicate 8 true <+: encode (.hdrLeaf 511#9) ∧
      List.replicate 8 true ≠ encode (.hdrLeaf 511#9) ∧
      s.srcBits.drop s.srcPos = ((Shape.leaf 511#9).records.take 0).flatMap encode ++ List.replicate 8 true := by
  decide +kernel

/-- V73: 512 zero bits, then the end. -/
theorem witness_RhdrTruncated_zeros :
    let s := launch Config.standard (List.replicate 64 0x00#8) []
    s.run = .idle ∧ 512 < 513 ∧ (spine 256#9 512).records[512]? = some (.hdrLeaf 256#9) ∧
      RecordsOk ((spine 256#9 512).records.take 512) ∧ [] <+: encode (.hdrLeaf 256#9) ∧
      [] ≠ encode (.hdrLeaf 256#9) ∧
      s.srcBits.drop s.srcPos = ((spine 256#9 512).records.take 512).flatMap encode ++ [] := by decide +kernel

/-- The first record is reserved, and the header goes on. -/
theorem witness_RhdrBadSymbol_first :
    let s := launch Config.standard [0xC0#8, 0x40#8] []
    s.run = .idle ∧ (Shape.leaf 257#9).records[0]? = some (.hdrLeaf 257#9) ∧ 256 < (257#9).toNat ∧
      RecordsOk ((Shape.leaf 257#9).records.take 0) ∧
      s.srcBits.drop s.srcPos =
        ((Shape.leaf 257#9).records.take 0).flatMap encode ++ encode (.hdrLeaf 257#9) ++ List.replicate 6 false := by
  decide +kernel

/-- The last record that has an entry is reserved. -/
theorem witness_RhdrBadSymbol_last :
    let s := launch Config.standard (List.replicate 64 0x00#8 ++ [0xC0#8, 0x40#8]) []
    s.run = .idle ∧ 512 < 513 ∧ (spine 257#9 512).records[512]? = some (.hdrLeaf 257#9) ∧
      RecordsOk ((spine 257#9 512).records.take 512) ∧
      s.srcBits.drop s.srcPos =
        ((spine 257#9 512).records.take 512).flatMap encode ++ encode (.hdrLeaf 257#9) ++ List.replicate 6 false := by
  decide +kernel

/-- A shape with `n + 1` leaves. -/
def comb : Nat → Shape
  | 0 => .leaf 256#9
  | n + 1 => .node (.leaf 0#9) (comb n)

/-- The stream of a launch from the bytes of a padded string. -/
theorem launch_packed (l : List Bool) :
    (launch Config.standard (packBytes (l ++ padding l.length)) []).srcBits.drop
      (launch Config.standard (packBytes (l ++ padding l.length)) []).srcPos = l ++ padding l.length :=
  flatMap_packBytes_padded l

theorem witness_RhdrTreeTooLarge_shape :
    let l := ((comb 257).records.take 513).flatMap encode
    let s := launch Config.standard (packBytes (l ++ padding l.length)) []
    s.run = .idle ∧ 513 < (comb 257).records.length ∧ RecordsOk ((comb 257).records.take 513) ∧
      s.srcBits.drop s.srcPos = l ++ padding l.length :=
  ⟨rfl, by decide +kernel, by decide +kernel, launch_packed _⟩

theorem witness_RhdrTreeTooLarge_zeros :
    let s := launch Config.standard (List.replicate 65 0x00#8) []
    s.run = .idle ∧ s.srcBits.drop s.srcPos = List.replicate 513 false ++ List.replicate 7 false := by decide +kernel

theorem witness_WmagicResult :
    State.reset.run = .idle ∧ State.reset.snkClosed = false ∧ { State.reset with snkClosed := true }.snkClosed = true := by
  decide

theorem witness_EncodeResult :
    coded.run = .idle ∧ coded.codeValid = true ∧ coded.snkClosed = false ∧
      coded.bytesLeft = [0x41#8, 0x41#8, 0x41#8, 0x42#8] ∧ ∀ b ∈ coded.bytesLeft, coded.codeHas[dataSymbol b] = true := by
  decide +kernel

theorem witness_EncodeNoCode :
    let s := { coded with src := [0x41#8, 0xFA#8, 0x42#8] }
    s.run = .idle ∧ s.codeValid = true ∧ s.snkClosed = false ∧ s.bytesLeft = [0x41#8] ++ 0xFA#8 :: [0x42#8] ∧
      (∀ c ∈ [0x41#8], s.codeHas[dataSymbol c] = true) ∧ s.codeHas[dataSymbol 0xFA#8] = false := by decide +kernel

theorem witness_CloseResult :
    (State.reset.writeBits 1 1).run = .idle ∧ (State.reset.writeBits 1 1).snkClosed = false ∧
      { State.reset with snkClosed := true }.snkClosed = true := by decide

theorem witness_DecodeResult :
    parsed.run = .idle ∧ parsed.treeState ≠ .none ∧ parsed.snkClosed = false ∧ HoldsTree parsed parsedTree ∧
      2 ≤ parsedTree.shape.leaves ∧
      (∀ c ∈ [(65#9, [true]), (65#9, [true]), (65#9, [true]), (66#9, [false, false])],
        c ∈ parsedTree.shape.paths ∧ c.1 ≠ 256#9) ∧
      (256#9, [false, true]) ∈ parsedTree.shape.paths ∧
      parsed.srcBits.drop parsed.srcPos =
        [(65#9, [true]), (65#9, [true]), (65#9, [true]), (66#9, [false, false])].flatMap Prod.snd ++ [false, true] ++
          [false] := by decide +kernel

theorem witness_DecodeTruncated :
    let s := { parsed with src := [0xFE#8] }
    s.run = .idle ∧ s.treeState ≠ .none ∧ s.snkClosed = false ∧ HoldsTree s parsedTree ∧
      2 ≤ parsedTree.shape.leaves ∧
      (∀ c ∈ List.replicate 7 (65#9, [true]), c ∈ parsedTree.shape.paths ∧ c.1 ≠ 256#9) ∧
      (∃ c ∈ parsedTree.shape.paths, [false] <+: c.2 ∧ [false] ≠ c.2) ∧
      s.srcBits.drop s.srcPos = (List.replicate 7 (65#9, [true])).flatMap Prod.snd ++ [false] := by decide +kernel

theorem witness_DecodeSingleLeaf :
    (single 256#9).run = .idle ∧ (single 256#9).treeState ≠ .none ∧ (single 256#9).snkClosed = false ∧
      HoldsTree (single 256#9) (.leaf 0#10 256#9) ∧ HoldsTree (single 65#9) (.leaf 0#10 65#9) ∧ 65#9 ≠ 256#9 := by
  decide +kernel

theorem witness_CompressResult :
    let s := launch Config.standard [0x41#8] []
    s.run = .idle ∧ s.srcPos = 0 ∧ s.snkClosed = false ∧ s.snkBits = [] ∧ s.inPq = 0#513 ∧
      s.src.length ≤ s.cfg.maxLen := by decide +kernel

theorem witness_DecompressResult :
    let t : Shape := .node (.leaf 0#9) (.leaf 256#9)
    let s := launch Config.standard [0xFA#8, 0xCE#8, 0x82#8, 0x01#8, 0x40#8, 0x18#8, 0x02#8] []
    s.run = .idle ∧ s.snkClosed = false ∧ s.snkBits = [] ∧ 2 ≤ t.leaves ∧ t.leaves ≤ 257 ∧ t.symbolsOk ∧
      (∀ c ∈ [(0#9, [false])], c ∈ t.paths ∧ c.1 ≠ 256#9) ∧ (256#9, [true]) ∈ t.paths ∧
      s.srcBits.drop s.srcPos =
        bits 32 s.cfg.magic.toNat ++ t.ser ++ [(0#9, [false])].flatMap Prod.snd ++ [true] ++ [false] := by decide +kernel

theorem witness_RoundTrip : [0x41#8].length ≤ Config.standard.maxLen := by decide +kernel

theorem witness_MagicFieldResult :
    { State.reset with run := .busy .magic }.run = .busy .magic ∧ 0xFACE8201#32 = State.reset.cfg.magic ∧
      0#32 ≠ State.reset.cfg.magic := by decide

theorem witness_InternalRecordResult :
    (reading []).run = .busy .header ∧ (reading []).nodeCount ≠ 513#10 ∧ { reading [] with nodeCount := 513#10 }.nodeCount = 513#10 := by
  decide

theorem witness_ReservedLeafRecordRaises :
    (reading []).run = .busy .header ∧ 256 < (257#9).toNat ∧ (reading []).nodeCount ≠ 513#10 ∧
      { reading [] with nodeCount := 513#10 }.nodeCount = 513#10 := by decide

theorem witness_LeafRecordResult_root :
    let s := { reading [] with nodeCount := 2#10, stack := [⟨0#10, some 1#10⟩] }
    s.run = .busy .header ∧ (256#9).toNat ≤ 256 ∧ s.nodeCount.toNat < 513 ∧
      s.stack = [(0#10, 1#10)].map (fun c => ⟨c.1, some c.2⟩) ++ [] ∧ (∀ c ∈ [(0#10, 1#10)], c.1.toNat < 513) ∧
      (s.nodeCount :: [(0#10, 1#10)].map Prod.fst).Nodup :=
  ⟨rfl, by decide, by decide, rfl, List.forall_mem_singleton.mpr (by decide), by decide⟩

theorem witness_LeafRecordResult_waiting :
    let s := { reading [] with nodeCount := 512#10, stack := [⟨1#10, some 2#10⟩, ⟨0#10, none⟩] }
    s.run = .busy .header ∧ (0#9).toNat ≤ 256 ∧ s.nodeCount.toNat < 513 ∧
      s.stack = [(1#10, 2#10)].map (fun c => ⟨c.1, some c.2⟩) ++ ⟨0#10, none⟩ :: [] ∧
      (∀ c ∈ [(1#10, 2#10)], c.1.toNat < 513) ∧ (s.nodeCount :: [(1#10, 2#10)].map Prod.fst).Nodup :=
  ⟨rfl, by decide, by decide, rfl, List.forall_mem_singleton.mpr (by decide), by decide⟩

/-- For `SresetResult`, `RhdrEndsAndIsItsRecords`, `RewindResult` and `MacroCommandsAreTheirSteps`. -/
theorem witness_idle_with_nothing_pending : State.reset.run = .idle ∧ State.reset.cmds = [] := by decide

/-- A launch meets the control invariant. -/
theorem launch_controlInv (cfg : Config) (source words : List Byte) : ControlInv (launch cfg source words) where
  atomic := fun _ h => RunState.noConfusion h
  reason := ⟨fun _ h => RunState.noConfusion h, fun _ => rfl⟩
  errorCloses := fun h => RunState.noConfusion h
  callsDone := rfl
  queueEmpty := rfl
  inSource := Nat.zero_le _
  openBytes := fun _ => rfl
  closedBytes := fun h => Bool.noConfusion h

/-- A launch meets the table invariant. -/
theorem launch_tableInv (cfg : Config) (source words : List Byte) : TableInv (launch cfg source words) where
  sentinel := fun h => Bool.noConfusion h
  codesBuilt := fun h => Bool.noConfusion h
  tree := fun h => absurd rfl h

theorem witness_StepKeepsControlInv :
    ControlInv (launch Config.standard [0x41#8] [0x01#8]) ∧
      step (launch Config.standard [0x41#8] [0x01#8]) = .next (after (step (launch Config.standard [0x41#8] [0x01#8]))) :=
  ⟨launch_controlInv _ _ _, eq_next_after (by decide +kernel)⟩

/-- The table invariant has something to say: a state with a built tree meets it. -/
theorem witness_StepKeepsTableInv :
    ControlInv { built with cmds := [0x03#8] } ∧ TableInv { built with cmds := [0x03#8] } ∧
      step { built with cmds := [0x03#8] } = .next (after (step { built with cmds := [0x03#8] })) := by
  refine ⟨⟨fun _ h => RunState.noConfusion h, ⟨fun _ h => RunState.noConfusion h, fun _ => rfl⟩,
    fun h => RunState.noConfusion h, rfl, rfl, by decide, fun _ => rfl, fun h => Bool.noConfusion h⟩, ?_,
    eq_next_after (by decide +kernel)⟩
  exact ⟨fun h => Bool.noConfusion h, fun h => Bool.noConfusion h,
    fun _ => ⟨scenarioTree, by decide +kernel, fun _ => by decide +kernel, fun h => TreeState.noConfusion h,
      fun h => Bool.noConfusion h⟩⟩

theorem witness_EveryStepEnds_refused :
    let s := launch ⟨0#32, 1⟩ [0x41#8] [0x01#8]
    ControlInv s ∧ TableInv s ∧ s.cfg.maxLen < s.src.length :=
  ⟨launch_controlInv _ _ _, launch_tableInv _ _ _, by decide⟩

theorem witness_ParametersNeverChange :
    step { failed with cmds := [0x0F#8] } = .next (after (step { failed with cmds := [0x0F#8] })) :=
  eq_next_after (by decide +kernel)

theorem witness_CompressionRaisesNoFormatError :
    State.reset.run = .idle ∧ exec .tbuild State.reset = .next (after (exec .tbuild State.reset)) ∧
      (after (exec .tbuild State.reset)).run = .error ∧
      exec .rmagic State.reset = .next (after (exec .rmagic State.reset)) ∧
      (after (exec .rmagic State.reset)).run = .error :=
  ⟨rfl, eq_next_after (by decide +kernel), by decide +kernel, eq_next_after (by decide +kernel), by decide +kernel⟩

/-- `COMPRESS` on a closed sink raises. -/
theorem witness_CompressionRaisesNoFormatError_compress :
    let s := { State.reset with snkClosed := true, snkBytes := some [] }
    s.run = .idle ∧ exec .compress s = .next (after (exec .compress s)) ∧ (after (exec .compress s)).run = .error :=
  ⟨rfl, eq_next_after (by decide +kernel), by decide +kernel⟩

end Sys2Proof.Tests
end

section
/-!
The stream primitives (`20_memory.md` R61 to R64, R68): reads return the source's bits in stream order, and the closed
sink's bytes hold its bits in the same order.
-/

namespace Sys2Proof.Machine

/-! ### Single bits of bit strings -/

/-- Bit `j` of a field in stream order is the bit of weight `2 ^ (w - 1 - j)` of its value (R6, R63). -/
theorem ofNat_val_getLsbD (l : List Bool) {w j : Nat} (hw : l.length = w) (hj : j < w) :
    (BitVec.ofNat w (val l)).getLsbD (w - 1 - j) = l.getD j false := by
  subst hw
  have hbit : l[j] = (val l).testBit (l.length - 1 - j) := by
    rw [← bits_getElem l.length (val l) j (by rwa [bits_length])]
    simp only [bits_val]
  rw [BitVec.getLsbD_ofNat, List.getD_eq_getElem l false hj, hbit, decide_eq_true (by omega), Bool.true_and]

/-- Bit `k` of a byte in stream order is its bit `7 - k` (R61). -/
theorem byteBits_getD (b : Byte) {k : Nat} (hk : k < 8) : (byteBits b).getD k false = b.getLsbD (7 - k) := by
  have h := ofNat_val_getLsbD (byteBits b) (byteBits_length b) hk
  rw [ofNat_val_byteBits] at h
  exact h.symm

/-- Stream bit `k` of a byte sequence is bit `7 - (k mod 8)` of byte `k div 8` (R61); past the end both sides read 0. -/
theorem flatMap_byteBits_getD (l : List Byte) (k : Nat) :
    (l.flatMap byteBits).getD k false = (l.getD (k / 8) 0#8).getLsbD (7 - k % 8) := by
  induction l generalizing k with
  | nil => simp
  | cons b l ih =>
    rw [List.flatMap_cons]
    rcases Nat.lt_or_ge k 8 with hk | hk
    · rw [List.getD_append _ _ _ _ (by rwa [byteBits_length]), byteBits_getD b hk, Nat.div_eq_of_lt hk,
        Nat.mod_eq_of_lt hk, List.getD_cons_zero]
    · obtain ⟨m, rfl⟩ := Nat.exists_eq_add_of_le' hk
      rw [List.getD_append_right _ _ _ _ (by rwa [byteBits_length]), byteBits_length, Nat.add_sub_cancel, ih,
        Nat.add_div_right m (by decide), Nat.add_mod_right, List.getD_cons_succ]

/-- Padding adds no set bit: past the end of the string both sides read 0 (R68). -/
theorem append_padding_getD (l : List Bool) (n m : Nat) : (l ++ padding n).getD m false = l.getD m false := by
  rcases Nat.lt_or_ge m l.length with hm | hm
  · exact List.getD_append _ _ _ _ hm
  · rw [List.getD_append_right _ _ _ _ hm, List.getD_eq_default l false hm, padding,
      List.getD_eq_getElem?_getD, List.getElem?_getD_replicate_default_eq]

/-! ### Reads -/

/-- The bits of a window of the source, counted from the position (R61, R62). -/
theorem window_getD (s : State) {w j : Nat} (hj : j < w) :
    ((s.srcBits.drop s.srcPos).take w).getD j false =
      (s.src.getD ((s.srcPos + j) / 8) 0#8).getLsbD (7 - (s.srcPos + j) % 8) := by
  rw [← flatMap_byteBits_getD, List.getD_eq_getElem?_getD, List.getElem?_take_of_lt hj, List.getElem?_drop,
    ← List.getD_eq_getElem?_getD, State.srcBits]

theorem window_length {s : State} {w : Nat} (h : s.srcPos + w ≤ s.srcEnd) :
    ((s.srcBits.drop s.srcPos).take w).length = w := by
  rw [List.length_take, List.length_drop, srcBits_length]
  omega

/-- A read answers `EOS` exactly when too few bits are left, and then moves to the end (R63). -/
theorem readBits_eq_none {w : Nat} {s u : State} :
    readBits w s = (none, u) ↔ s.srcEnd < s.srcPos + w ∧ u = { s with srcPos := s.srcEnd } := by
  rcases Nat.lt_or_ge s.srcEnd (s.srcPos + w) with h | h
  · rw [readBits_short h, Prod.mk.injEq]
    exact ⟨fun ⟨_, hu⟩ => ⟨h, hu.symm⟩, fun ⟨_, hu⟩ => ⟨rfl, hu.symm⟩⟩
  · rw [readBits_enough h, Prod.mk.injEq]
    exact ⟨fun ⟨hv, _⟩ => absurd hv (Option.some_ne_none _), fun ⟨hlt, _⟩ => absurd h (Nat.not_le.mpr hlt)⟩

/-- At the end of the source every read of at least one bit answers `EOS` and changes nothing (R64). -/
theorem readBits_atEnd {w : Nat} {s : State} (hw : 1 ≤ w) (hs : s.srcPos = s.srcEnd) : readBits w s = (none, s) :=
  readBits_eq_none.mpr ⟨by omega, by rw [← hs]⟩

/-- A read from inside the source stays inside it (R64). -/
theorem readBits_srcPos_le (w : Nat) {s : State} (hs : s.srcPos ≤ s.srcEnd) : (readBits w s).2.srcPos ≤ s.srcEnd := by
  obtain ⟨p, hread, hp⟩ := readBits_state w s
  rw [hread]
  exact (hp hs).2

/-- Settles O17: the bits read are a window of the source, whose bits stand in the value most significant first. -/
theorem readBitsResult : Obligations.ReadBitsResult := by
  intro s w
  refine ⟨fun h => ⟨_, readBits_enough h, fun j hj => ?_⟩, fun h => readBits_short h⟩
  rw [ofNat_val_getLsbD _ (window_length h) hj, window_getD s hj]

/-- Settles O18: an `EOS` leaves the position at the end, where every read answers `EOS` again. -/
theorem endOfStreamIsSticky : Obligations.EndOfStreamIsSticky := by
  intro s u w h
  obtain ⟨-, rfl⟩ := readBits_eq_none.mp h
  exact ⟨rfl, fun _ hw' => readBits_atEnd hw' rfl, fun v w' hv => readBits_srcPos_le w' hv⟩

/-! ### `CLOSE` -/

/-- `CLOSE` on an open sink pads, packs and closes it (R193). -/
theorem exec_close_open {s : State} (hrun : s.run = .idle) (hopen : s.snkClosed = false) :
    exec .close s = .next s.closeSink := by
  have hbody : closeBody s = .ok s.closeSink := by
    simp only [closeBody, State.sinkOpen, hopen, Bool.not_false, require_true, andThen_ok]
  exact (issue_idle hrun).trans (by rw [hbody]; exact finish_ok hrun)

/-- `CLOSE` on a closed sink raises `SEQ_ERROR` and has changed nothing before (R193, R256). -/
theorem exec_close_closed {s : State} (hrun : s.run = .idle) (hclosed : s.snkClosed = true) :
    exec .close s = .next (errorEntry .seqError s) := by
  have hbody : closeBody s = .raised .seqError s := by
    simp only [closeBody, State.sinkOpen, hclosed, Bool.not_true, require_false, andThen_raised]
  exact (issue_idle hrun).trans (by rw [hbody, finish_raised])

/-- The bytes of a padded string are as many as its length, rounded up to a byte, needs (R68). -/
theorem packBytes_padded_length (l : List Bool) :
    8 * (packBytes (l ++ padding l.length)).length = l.length + (8 - l.length % 8) % 8 := by
  rw [packBytes_length, List.length_append, padding_length]
  omega

/-- Byte `j` of a padded string holds its bits `8 j` to `8 j + 7`, the first most significant (R68). -/
theorem packBytes_padded_getD (l : List Bool) (j : Nat) {k : Nat} (hk : k < 8) :
    ((packBytes (l ++ padding l.length)).getD j 0#8).getLsbD (7 - k) = l.getD (8 * j + k) false := by
  have h := flatMap_byteBits_getD (packBytes (l ++ padding l.length)) (8 * j + k)
  rw [flatMap_packBytes_padded, append_padding_getD, show (8 * j + k) / 8 = j by omega,
    show (8 * j + k) % 8 = k by omega] at h
  exact h.symm

/-- Settles O39: on an open sink `CLOSE` is `close()` and its bytes those of the padded sink; on a closed one it raises. -/
theorem closeResult : Obligations.CloseResult := by
  refine ⟨rfl, fun s hrun => ⟨fun hopen => ?_, exec_close_closed hrun⟩⟩
  exact ⟨_, exec_close_open hrun hopen, packBytes_padded_length s.snkBits,
    fun j _ _ hk => packBytes_padded_getD s.snkBits j hk⟩

end Sys2Proof.Machine
end

section
/-!
Headers (`30_encoding.md` R94, R105): the first bit of a record tells where it ends, so a header is read in one way only; and
its length follows from its number of leaves.
-/

namespace Sys2Proof.Machine

/-- A field of fixed width tells its value and where it ends (R6). -/
theorem bits_append_inj {w : Nat} {v x : BitVec w} {a b : List Bool} (h : bits w v.toNat ++ a = bits w x.toNat ++ b) :
    v = x ∧ a = b := by
  obtain ⟨hbits, hrest⟩ := List.append_inj h (by rw [bits_length, bits_length])
  exact ⟨BitVec.eq_of_toNat_eq (bits_inj v.isLt x.isLt hbits), hrest⟩

/-- Two headers that begin the same bit string are of the same tree, and the same bits follow (R105). -/
theorem Shape.ser_append_inj {t u : Shape} {a b : List Bool} (h : t.ser ++ a = u.ser ++ b) : t = u ∧ a = b := by
  induction t generalizing u a b with
  | leaf v =>
    cases u with
    | leaf x =>
      simp only [Shape.ser, List.cons_append, List.cons.injEq, true_and] at h
      obtain ⟨rfl, hrest⟩ := bits_append_inj h
      exact ⟨rfl, hrest⟩
    | node l' r' => simp [Shape.ser] at h
  | node l r ihl ihr =>
    cases u with
    | leaf x => simp [Shape.ser] at h
    | node l' r' =>
      simp only [Shape.ser, List.cons_append, List.cons.injEq, true_and, List.append_assoc] at h
      obtain ⟨rfl, hright⟩ := ihl h
      obtain ⟨rfl, hrest⟩ := ihr hright
      exact ⟨rfl, hrest⟩

/-- Each leaf costs ten bits and each internal node, of which there is one fewer, costs one (R94). -/
theorem Shape.ser_length (t : Shape) : t.ser.length = 11 * t.leaves - 1 := by
  induction t with
  | leaf v => simp [Shape.ser, Shape.leaves]
  | node l r hl hr =>
    have := l.leaves_pos
    have := r.leaves_pos
    simp only [Shape.ser, Shape.leaves, List.length_cons, List.length_append, hl, hr]
    omega

/-- Settles O5: headers are read in one way, and the bounds follow from the length formula and that a tree has a leaf. -/
theorem headersParseInOneWay : Obligations.HeadersParseInOneWay := by
  refine ⟨fun t u a b => Shape.ser_append_inj, fun t => ?_⟩
  have hlen := t.ser_length
  have hpos := t.leaves_pos
  exact ⟨hlen, by omega, fun _ => by omega⟩

end Sys2Proof.Machine
end

section
/-!
What every command body leaves alone (`10_state.md` R24, R35), and `COMPRESS` and `DECOMPRESS` as the sequences of their
steps (`30_encoding.md` R104): a body that ends well leaves the machine in `IDLE`, so the next step is accepted.
-/

namespace Sys2Proof.Machine

/-! ### The state around a running command -/

/-- What no line of a command body writes: the parameters and the source (R35), what the host has ready, and the control
state, which only the end of a command sets (R25, R257). -/
def State.ambient (s : State) : Config × List Byte × List (List Byte) × List Byte × RunState × Reason :=
  (s.cfg, s.cmds, s.binds, s.src, s.run, s.err)

theorem run_of_ambient_eq {s u : State} (h : u.ambient = s.ambient) : u.run = s.run :=
  congrArg (fun a => a.2.2.2.2.1) h

/-- A body, or a line of one, that ends or raises has kept what was around it when it began at `s`. -/
def Ended.Keeps (e : Ended) (s : State) : Prop :=
  match e with
  | .ok u => u.ambient = s.ambient
  | .raised _ u => u.ambient = s.ambient
  | .fault _ => True
  | .refused _ => True

theorem Ended.Keeps.of_ambient_eq {e : Ended} {s u : State} (he : e.Keeps u) (h : u.ambient = s.ambient) : e.Keeps s := by
  cases e with
  | ok v => exact Eq.trans he h
  | raised why v => exact Eq.trans he h
  | fault f => trivial
  | refused r => trivial

/-- Lines that each keep what is around them keep it together. -/
theorem Ended.Keeps.andThen {e : Ended} {s : State} {k : State → Ended} (he : e.Keeps s) (hk : ∀ u, (k u).Keeps u) :
    (e.andThen k).Keeps s := by
  cases e with
  | ok u => exact (hk u).of_ambient_eq he
  | raised why u => exact he
  | fault f => trivial
  | refused r => trivial

theorem require_keeps (p : Bool) (why : Reason) (s : State) : (require p why s).Keeps s := by
  cases p <;> rfl

theorem readBits_ambient {w : Nat} {s u : State} {v : Option (BitVec w)} (h : readBits w s = (v, u)) :
    u.ambient = s.ambient := by
  obtain ⟨p, hp, -⟩ := readBits_state w s
  rw [h] at hp
  rw [show u = _ from hp]
  rfl

@[simp] theorem bump_ambient (s : State) (v : Byte) : (s.bump v).ambient = s.ambient := rfl

@[simp] theorem addLeaf_ambient (s : State) (n : Fin 513) (y : Symbol) : (s.addLeaf n y).ambient = s.ambient := rfl

@[simp] theorem addMerge_ambient (s : State) (n : Fin 513) (a b : Nat) : (s.addMerge n a b).ambient = s.ambient := rfl

@[simp] theorem pqRemove_ambient (s : State) (i : Nat) : (s.pqRemove i).ambient = s.ambient := rfl

@[simp] theorem dropTree_ambient (s : State) : s.dropTree.ambient = s.ambient := rfl

@[simp] theorem writeCode_ambient (s : State) (y : Symbol) : (s.writeCode y).ambient = s.ambient := rfl

/-! ### The bodies of the compressor -/

theorem countLoop_ambient (n : Nat) (s : State) : (countLoop n s).ambient = s.ambient := by
  induction n generalizing s with
  | zero => exact readBits_ambient rfl
  | succ n ih =>
    rw [countLoop]
    split
    next s1 h => exact readBits_ambient h
    next v s1 h => rw [ih, bump_ambient, readBits_ambient h]

theorem fcountBody_keeps (s : State) : (fcountBody s).Keeps s := by
  unfold fcountBody
  split
  · trivial
  · exact countLoop_ambient _ s.dropAll.clearFreq

theorem leafLoop_ambient {l : List Symbol} {n m : Nat} {s u : State} (h : leafLoop l n s = .ok (m, u)) :
    u.ambient = s.ambient := by
  induction l generalizing n s with
  | nil => cases h; rfl
  | cons y l ih =>
    rw [leafLoop] at h
    split at h
    · split at h
      · rw [ih h, addLeaf_ambient]
      · cases h
    · exact ih h

theorem extractMin_ambient {s u : State} {i : Nat} (h : extractMin s = some (i, u)) : u.ambient = s.ambient := by
  obtain ⟨j, -, hj⟩ := Option.map_eq_some_iff.mp h
  obtain ⟨-, rfl⟩ := Prod.mk.inj hj
  exact pqRemove_ambient s j

theorem mergeOnce_ambient {n : Fin 513} {s u : State} (h : mergeOnce n s = .ok u) : u.ambient = s.ambient := by
  unfold mergeOnce at h
  split at h
  · cases h
  next a s1 h1 =>
    split at h
    · cases h
    next b s2 h2 =>
      cases h
      rw [addMerge_ambient, extractMin_ambient h2, extractMin_ambient h1]

/-! The loop's equations, branch by branch: the definition's own equation lemma does not elaborate, for it evaluates
`mergeOnce` down to the 513 members. -/

/-- The merge loop ends when at most one member is left (R132). -/
theorem mergeLoop_done (free n : Nat) {s : State} (h : s.members.length ≤ 1) : mergeLoop free n s = .ok (n, s) := by
  cases free <;> exact if_pos h

theorem mergeLoop_zero (n : Nat) {s : State} (h : ¬ s.members.length ≤ 1) : mergeLoop 0 n s = .error .noSuchNode :=
  if_neg h

theorem mergeLoop_full (free : Nat) {n : Nat} {s : State} (h : ¬ s.members.length ≤ 1) (hn : ¬ n < 513) :
    mergeLoop (free + 1) n s = .error .noSuchNode :=
  (if_neg h).trans (dif_neg hn)

theorem mergeLoop_stuck (free : Nat) {n : Nat} {s : State} {f : Fault} (h : ¬ s.members.length ≤ 1) (hn : n < 513)
    (hturn : mergeOnce ⟨n, hn⟩ s = .error f) : mergeLoop (free + 1) n s = .error f := by
  refine (if_neg h).trans ((dif_pos hn).trans ?_)
  rw [hturn]

theorem mergeLoop_turn (free : Nat) {n : Nat} {s s1 : State} (h : ¬ s.members.length ≤ 1) (hn : n < 513)
    (hturn : mergeOnce ⟨n, hn⟩ s = .ok s1) : mergeLoop (free + 1) n s = mergeLoop free (n + 1) s1 := by
  refine (if_neg h).trans ((dif_pos hn).trans ?_)
  rw [hturn]

/-- A merge loop that ends well had one member left, or took a turn and went on. -/
theorem mergeLoop_eq_ok {free n m : Nat} {s u : State} (h : mergeLoop free n s = .ok (m, u)) :
    (s.members.length ≤ 1 ∧ m = n ∧ u = s) ∨
      ∃ k s1, ∃ hn : n < 513, free = k + 1 ∧ ¬ s.members.length ≤ 1 ∧ mergeOnce ⟨n, hn⟩ s = .ok s1 ∧
        mergeLoop k (n + 1) s1 = .ok (m, u) := by
  by_cases hm : s.members.length ≤ 1
  · rw [mergeLoop_done free n hm, Except.ok.injEq, Prod.mk.injEq] at h
    obtain ⟨rfl, rfl⟩ := h
    exact .inl ⟨hm, rfl, rfl⟩
  · cases free with
    | zero =>
      rw [mergeLoop_zero n hm] at h
      cases h
    | succ k =>
      by_cases hn : n < 513
      · cases hturn : mergeOnce ⟨n, hn⟩ s with
        | error f =>
          rw [mergeLoop_stuck k hm hn hturn] at h
          cases h
        | ok s1 =>
          rw [mergeLoop_turn k hm hn hturn] at h
          exact .inr ⟨k, s1, hn, rfl, hm, hturn, h⟩
      · rw [mergeLoop_full k hm hn] at h
        cases h

theorem mergeLoop_ambient {free n m : Nat} {s u : State} (h : mergeLoop free n s = .ok (m, u)) :
    u.ambient = s.ambient := by
  induction free generalizing n s with
  | zero =>
    obtain ⟨-, -, rfl⟩ | ⟨k, -, -, hfree, -⟩ := mergeLoop_eq_ok h
    · rfl
    · cases hfree
  | succ free ih =>
    obtain ⟨-, -, rfl⟩ | ⟨k, s1, hn, hfree, -, hturn, hrest⟩ := mergeLoop_eq_ok h
    · rfl
    · obtain rfl := Nat.succ.inj hfree
      rw [ih hrest, mergeOnce_ambient hturn]

theorem buildTree_ambient {s u : State} (h : buildTree s = .ok u) : u.ambient = s.ambient := by
  unfold buildTree at h
  split at h
  · cases h
  next n s1 h1 =>
    split at h
    · cases h
    next m s2 h2 =>
      split at h
      · cases h
      next r s3 h3 =>
        cases h
        exact (extractMin_ambient h3).trans ((mergeLoop_ambient h2).trans (leafLoop_ambient h1))

theorem tbuildBody_keeps (s : State) : (tbuildBody s).Keeps s := by
  refine (require_keeps _ _ s).andThen fun u => ?_
  split
  · trivial
  next v h => exact (buildTree_ambient h).trans (dropTree_ambient u)

theorem walk_keeps (d : Nat) (i : NodeIdx) (p : List Bool) (s : State) : (walk d i p s).Keeps s := by
  induction d generalizing i p s with
  | zero => trivial
  | succ d ih =>
    rw [walk]
    split
    · trivial
    · split
      · split
        · trivial
        · rfl
      · exact (ih _ _ s).andThen fun u => ih _ _ u

theorem cgenBody_keeps (s : State) : (cgenBody s).Keeps s :=
  (require_keeps _ _ s).andThen fun u =>
    Ended.Keeps.andThen (walk_keeps _ _ _ { u with codeValid := false }.clearCodes) fun _ => rfl

theorem wmagicBody_keeps (s : State) : (wmagicBody s).Keeps s := (require_keeps _ _ s).andThen fun _ => rfl

theorem putTree_keeps (d : Nat) (i : NodeIdx) (s : State) : (putTree d i s).Keeps s := by
  induction d generalizing i s with
  | zero => trivial
  | succ d ih =>
    rw [putTree]
    split
    · trivial
    · split
      · rfl
      · exact Ended.Keeps.andThen (ih _ (s.writeBits 1 0)) fun u => ih _ u

theorem whdrBody_keeps (s : State) : (whdrBody s).Keeps s :=
  (require_keeps _ _ s).andThen fun u => putTree_keeps _ _ u

theorem rewindBody_keeps (s : State) : (rewindBody s).Keeps s := rfl

theorem encodeLoop_keeps (n : Nat) (s : State) : (encodeLoop n s).Keeps s := by
  induction n generalizing s with
  | zero => exact readBits_ambient rfl
  | succ n ih =>
    rw [encodeLoop]
    split
    next s1 h => exact readBits_ambient h
    next v s1 h =>
      split
      · exact (ih _).of_ambient_eq ((writeCode_ambient s1 _).trans (readBits_ambient h))
      · exact readBits_ambient h

theorem encodeBody_keeps (s : State) : (encodeBody s).Keeps s :=
  (require_keeps _ _ s).andThen fun u => (encodeLoop_keeps _ u).andThen fun _ => rfl

theorem closeBody_keeps (s : State) : (closeBody s).Keeps s := (require_keeps _ _ s).andThen fun _ => rfl

/-! ### The bodies of the decompressor -/

theorem checkMagic_keeps (m : BitVec 32) (s : State) : (checkMagic m s).Keeps s := require_keeps _ _ s

theorem rmagicBody_keeps (s : State) : (rmagicBody s).Keeps s := by
  unfold rmagicBody
  split
  next s1 h => exact readBits_ambient h
  next m s1 h => exact (checkMagic_keeps m s1).of_ambient_eq (readBits_ambient h)

theorem returnNode_keeps (l : List Pending) (i : NodeIdx) (s : State) : (returnNode l i s).Keeps s := by
  induction l generalizing i s with
  | nil => rfl
  | cons c l ih =>
    obtain ⟨j, left⟩ := c
    cases left with
    | none => rfl
    | some k =>
      rw [returnNode]
      split
      · trivial
      · exact ih _ _

theorem takeInternal_keeps (s : State) : (takeInternal s).Keeps s := by
  unfold takeInternal
  split <;> rfl

theorem takeLeaf_keeps (v : SymField) (s : State) : (takeLeaf v s).Keeps s := by
  unfold takeLeaf
  split
  · rfl
  · split
    · rfl
    · split
      · trivial
      · exact returnNode_keeps _ _ _

theorem takeRecord_keeps (i : Instr) (s : State) : (takeRecord i s).Keeps s := by
  cases i with
  | hdrLeaf v => exact takeLeaf_keeps v s
  | hdrInternal => exact takeInternal_keeps s
  | _ => rfl

/-- The state a fetch from the stream leaves, whether it found a field or raises. -/
def Fetched.state : Fetched → State
  | .instr _ s => s
  | .raised _ s => s

theorem fetchRecord_ambient (s : State) : (fetchRecord s).state.ambient = s.ambient := by
  unfold fetchRecord
  split
  · rfl
  · split
    next s1 h => exact readBits_ambient h
    next b s1 h =>
      split
      · exact readBits_ambient h
      · split
        next s2 h2 => exact (readBits_ambient h2).trans (readBits_ambient h)
        next v s2 h2 => exact (readBits_ambient h2).trans (readBits_ambient h)

theorem headerTurn_keeps (s : State) : (headerTurn s).Keeps s := by
  have hfetch := fetchRecord_ambient s
  unfold headerTurn
  split
  next why s1 h => rwa [h] at hfetch
  next i s1 h =>
    rw [h] at hfetch
    exact (takeRecord_keeps i s1).of_ambient_eq hfetch

theorem headerLoop_keeps (n : Nat) (s : State) : (headerLoop n s).Keeps s := by
  induction n generalizing s with
  | zero => rfl
  | succ n ih =>
    refine (headerTurn_keeps s).andThen fun u => ?_
    split
    · rfl
    · exact ih u

theorem rhdrBody_keeps (s : State) : (rhdrBody s).Keeps s := headerLoop_keeps _ s.openHeader

theorem decodeLoop_keeps (n : Nat) (s : State) : (decodeLoop n s).Keeps s := by
  induction n generalizing s with
  | zero => exact readBits_ambient rfl
  | succ n ih =>
    rw [decodeLoop]
    split
    next s1 h => exact readBits_ambient h
    next b s1 h =>
      have hread := readBits_ambient h
      split
      · trivial
      · split
        · trivial
        · split
          · split
            · exact hread
            · exact (ih _).of_ambient_eq hread
          · exact (ih _).of_ambient_eq hread

theorem decodeBody_keeps (s : State) : (decodeBody s).Keeps s := by
  refine (require_keeps _ _ s).andThen fun u => ?_
  split
  · trivial
  · split
    · exact require_keeps _ _ u
    · exact decodeLoop_keeps _ { u with cur := u.root }

/-! ### `COMPRESS` and `DECOMPRESS` -/

/-- In `IDLE` the lines `k` end as the commands of `l`, issued one by one and followed by the line `tree_state <- NONE`
(R104). -/
def MacroSteps (l : List Instr) (k : State → Ended) : Prop :=
  ∀ s : State, s.run = .idle → clearTree (runSeq l s) = finish (k s)

theorem macroSteps_nil : MacroSteps [] endMacro := by
  intro s hrun
  rw [endMacro, finish_ok (s := { s with treeState := .none }) hrun, runSeq, clearTree, if_pos hrun]

/-- A command with the body `k` in front of a sequence is the lines of `k` in front of the sequence's: if `k` ends well the
machine is in `IDLE` and the sequence goes on; if it raises the machine is in `ERROR` and the sequence ends there. -/
theorem MacroSteps.cons {i : Instr} {l : List Instr} {k rest : State → Ended} (hl : MacroSteps l rest)
    (hexec : exec i = issue k) (hkeeps : ∀ s, (k s).Keeps s) : MacroSteps (i :: l) fun s => (k s).andThen rest := by
  intro s hrun
  have hk := hkeeps s
  simp only [runSeq, hexec, issue_idle hrun]
  cases hbody : k s with
  | ok u =>
    rw [hbody] at hk
    have hidle : u.run = .idle := (run_of_ambient_eq hk).trans hrun
    simp only [finish_ok hidle, hidle, if_true, andThen_ok, hl u hidle]
  | raised why u => simp [clearTree]
  | fault f => rfl
  | refused r => rfl

/-- The lines of `COMPRESS` are its eight commands and the last line (R104, R230). -/
theorem compress_macroSteps :
    MacroSteps [.fcount, .tbuild, .cgen, .wmagic, .whdr, .rewind, .encode, .close] compressBody := by
  have h := macroSteps_nil
    |>.cons (i := .close) rfl closeBody_keeps
    |>.cons (i := .encode) rfl encodeBody_keeps
    |>.cons (i := .rewind) rfl rewindBody_keeps
    |>.cons (i := .whdr) rfl whdrBody_keeps
    |>.cons (i := .wmagic) rfl wmagicBody_keeps
    |>.cons (i := .cgen) rfl cgenBody_keeps
    |>.cons (i := .tbuild) rfl tbuildBody_keeps
    |>.cons (i := .fcount) rfl fcountBody_keeps
  intro s hrun
  simp only [compressBody, andThen_assoc]
  exact h s hrun

/-- The lines of `DECOMPRESS` are its four commands and the last line (R104, R231). -/
theorem decompress_macroSteps : MacroSteps [.rmagic, .rhdr, .decode, .close] decompressBody := by
  have h := macroSteps_nil
    |>.cons (i := .close) rfl closeBody_keeps
    |>.cons (i := .decode) rfl decodeBody_keeps
    |>.cons (i := .rhdr) rfl rhdrBody_keeps
    |>.cons (i := .rmagic) rfl rmagicBody_keeps
  intro s hrun
  simp only [decompressBody, andThen_assoc]
  exact h s hrun

/-- Settles O43: each step ends in `IDLE` or raises, so the sequence runs the lines of the body in
order. -/
theorem macroCommandsAreTheirSteps : Obligations.MacroCommandsAreTheirSteps := by
  intro s hrun
  exact ⟨(issue_idle hrun).trans (compress_macroSteps s hrun).symm,
    (issue_idle hrun).trans (decompress_macroSteps s hrun).symm⟩

end Sys2Proof.Machine
end

section
/-!
`FCOUNT`, the count pass (`40_freq_counter.md` R120 to R122): its loop reads the whole bytes left one by one, and after each
the frequency table holds the counts of the bytes read so far.
-/

namespace Sys2Proof.Machine

/-! ### The whole bytes left -/

theorem bytesLeft_length (s : State) : s.bytesLeft.length = s.srcLeft / 8 := by
  rw [State.bytesLeft, packBytes_length, List.length_drop, srcBits_length, State.srcLeft]

/-- When no whole byte is left, an 8-bit read answers `EOS` (R63). -/
theorem readBits_of_bytesLeft_nil {s : State} (h : s.bytesLeft = []) :
    readBits 8 s = (none, { s with srcPos := s.srcEnd }) := by
  have hlen := bytesLeft_length s
  rw [h, List.length_nil, State.srcLeft] at hlen
  exact readBits_short (by omega)

/-- When whole bytes are left, an 8-bit read answers the first of them and leaves the others (R63). -/
theorem readBits_of_bytesLeft_cons {s : State} {b : Byte} {l : List Byte} (h : s.bytesLeft = b :: l) :
    readBits 8 s = (some b, { s with srcPos := s.srcPos + 8 }) ∧ { s with srcPos := s.srcPos + 8 }.bytesLeft = l := by
  have hlen := bytesLeft_length s
  rw [h, List.length_cons, State.srcLeft] at hlen
  have hread := readBits_enough (w := 8) (s := s) (by omega)
  have hpack := packBytes_append _ ((s.srcBits.drop s.srcPos).drop 8) (window_length (w := 8) (s := s) (by omega))
  rw [List.take_append_drop, List.drop_drop, ← State.bytesLeft, h, List.cons.injEq] at hpack
  obtain ⟨rfl, rfl⟩ := hpack
  exact ⟨hread, rfl⟩

theorem bytesLeft_of_srcPos_zero {s : State} (h : s.srcPos = 0) : s.bytesLeft = s.src := by
  rw [State.bytesLeft, h, List.drop_zero, State.srcBits, packBytes_flatMap]

/-! ### The counts of a byte sequence -/

theorem dataSymbol_ne_eofSymbol (b : Byte) : dataSymbol b ≠ Config.eofSymbol :=
  Fin.ne_of_val_ne (Nat.ne_of_lt b.isLt)

theorem ofNat_dataSymbol (b : Byte) : BitVec.ofNat 8 (dataSymbol b).val = b := by
  rw [dataSymbol, BitVec.ofNat_toNat, BitVec.setWidth_eq]

/-- A symbol is the sentinel or stands for a data byte (R8). -/
theorem symbol_cases (y : Symbol) : y = Config.eofSymbol ∨ ∃ b : Byte, y = dataSymbol b := by
  rcases Nat.lt_or_ge y.val 256 with hy | hy
  · exact .inr ⟨BitVec.ofNat 8 y.val, Fin.ext (Nat.mod_eq_of_lt hy).symm⟩
  · exact .inl (Fin.ext (Nat.le_antisymm (Nat.le_of_lt_succ y.isLt) hy))

@[simp] theorem dataSymbol_inj {b c : Byte} : dataSymbol b = dataSymbol c ↔ b = c :=
  ⟨fun h => BitVec.eq_of_toNat_eq (Fin.mk.inj h), congrArg dataSymbol⟩

theorem getElem_set_symbol (f : Vector Nat 257) (y z : Symbol) (n : Nat) :
    (f.set y n)[z] = if y = z then n else f[z] := by
  simp only [Fin.getElem_fin, Vector.getElem_set, Fin.ext_iff]

/-- Frequency tables are equal when they agree on the sentinel and on every data byte (R8, R27). -/
theorem freq_ext {f g : Vector Nat 257} (heof : f[Config.eofSymbol] = g[Config.eofSymbol])
    (hdata : ∀ b : Byte, f[dataSymbol b] = g[dataSymbol b]) : f = g := by
  refine Vector.ext fun i hi => ?_
  obtain hy | ⟨b, hy⟩ := symbol_cases ⟨i, hi⟩
  · exact (congrArg (fun y : Symbol => f[y] = g[y]) hy).mpr heof
  · exact (congrArg (fun y : Symbol => f[y] = g[y]) hy).mpr (hdata b)

@[simp] theorem countsOf_eofSymbol (l : List Byte) : (countsOf l)[Config.eofSymbol] = 1 := by
  simp only [countsOf, Fin.getElem_fin, Vector.getElem_ofFn, Fin.eta, if_true]

@[simp] theorem countsOf_dataSymbol (l : List Byte) (b : Byte) : (countsOf l)[dataSymbol b] = l.count b := by
  simp only [countsOf, Fin.getElem_fin, Vector.getElem_ofFn, Fin.eta, dataSymbol_ne_eofSymbol, if_false,
    ofNat_dataSymbol]

/-- With no byte read every count is 0 but the sentinel's (R120). -/
theorem clearFreq_freq_eq_countsOf (s : State) : s.clearFreq.freq = countsOf [] := by
  rw [State.clearFreq_freq]
  refine freq_ext ?_ fun b => ?_
  · rw [getElem_set_symbol, if_pos rfl, countsOf_eofSymbol]
  · rw [getElem_set_symbol, if_neg (dataSymbol_ne_eofSymbol b).symm, Fin.getElem_fin, Vector.getElem_replicate,
      countsOf_dataSymbol, List.count_nil]

/-- The update of R121 for one more byte read. -/
theorem bump_freq_eq_countsOf {s : State} {l : List Byte} (b : Byte) (h : s.freq = countsOf l) :
    (s.bump b).freq = countsOf (l ++ [b]) := by
  rw [State.bump_freq, h, countsOf_dataSymbol]
  refine freq_ext ?_ fun c => ?_
  · rw [getElem_set_symbol, if_neg (dataSymbol_ne_eofSymbol b), countsOf_eofSymbol, countsOf_eofSymbol]
  · rw [getElem_set_symbol, countsOf_dataSymbol, countsOf_dataSymbol, List.count_append, List.count_singleton]
    by_cases hbc : b = c
    · subst hbc
      simp
    · simp [hbc, dataSymbol_inj]

/-- The counts of the 256 data bytes add up to the number of bytes. -/
theorem sum_count_ofNat (l : List Byte) : ∑ i : Fin 256, l.count (BitVec.ofNat 8 i.val) = l.length := by
  have hcount (i : Fin 256) : l.count (BitVec.ofNat 8 i.val) = (l.map BitVec.toFin).count i := by
    rw [← List.count_map_of_injective l BitVec.toFin fun _ _ => BitVec.eq_of_toFin_eq]
    congr 1
    exact Fin.ext (Nat.mod_eq_of_lt i.isLt)
  calc ∑ i : Fin 256, l.count (BitVec.ofNat 8 i.val)
      = ∑ i : Fin 256, (Multiset.ofList (l.map BitVec.toFin)).count i :=
        Finset.sum_congr rfl fun i _ => (hcount i).trans (Multiset.coe_count ..).symm
    _ = (Multiset.ofList (l.map BitVec.toFin)).card := Multiset.sum_count_eq_card fun _ _ => Finset.mem_univ _
    _ = l.length := by rw [Multiset.coe_card, List.length_map]

/-- The sum of all 257 counts is one more than the number of bytes (R122). -/
theorem countsOf_sum (l : List Byte) : (countsOf l).toList.sum = l.length + 1 := by
  have hlast : Fin.last 256 = Config.eofSymbol := rfl
  have hdata (i : Fin 256) : i.castSucc ≠ Config.eofSymbol := Fin.castSucc_ne_last i
  rw [countsOf, Vector.toList_ofFn, List.sum_ofFn, Fin.sum_univ_castSucc, if_pos hlast, ← sum_count_ofNat l]
  simp only [if_neg (hdata _), Fin.val_castSucc]

/-- At most 257 symbols are present (R122). -/
theorem leafList_length_le (freq : Vector Nat 257) : (leafList freq).length ≤ 257 := by
  rw [leafList, List.length_map]
  exact (List.length_filter_le ..).trans_eq (List.length_finRange ..)

/-- A symbol with a count above zero is present (R122, R131). -/
theorem leafList_length_pos {freq : Vector Nat 257} {y : Symbol} (h : 0 < freq[y]) : 1 ≤ (leafList freq).length := by
  rw [leafList, List.length_map]
  exact List.length_pos_of_mem (List.mem_filter.mpr ⟨List.mem_finRange y, decide_eq_true h⟩)

/-! ### `FCOUNT` -/

/-- The loop of R120 over the whole bytes left: the table that counts the bytes already read ends as the counts of these
and of the bytes left, and the source is at its end. -/
theorem countLoop_eq {s : State} {read left : List Byte} (hleft : s.bytesLeft = left) (hfreq : s.freq = countsOf read) :
    countLoop left.length s = { s with freq := countsOf (read ++ left), srcPos := s.srcEnd } := by
  induction left generalizing s read with
  | nil =>
    rw [List.length_nil, countLoop, readBits_of_bytesLeft_nil hleft, List.append_nil, ← hfreq]
  | cons b left ih =>
    obtain ⟨hread, hrest⟩ := readBits_of_bytesLeft_cons hleft
    have hnext := ih (s := { s with srcPos := s.srcPos + 8 }.bump b) hrest
      (bump_freq_eq_countsOf b (s := { s with srcPos := s.srcPos + 8 }) hfreq)
    rw [List.length_cons, countLoop, hread]
    rw [List.append_assoc] at hnext
    exact hnext

/-- `FCOUNT` in `IDLE` on a source that is not too long (R120, R298). -/
theorem exec_fcount {s : State} (hrun : s.run = .idle) (hlen : s.src.length ≤ s.cfg.maxLen) :
    exec .fcount s =
      .next
        { s with
          freq := countsOf s.bytesLeft, freqValid := true, treeState := .none, codeValid := false,
          srcPos := s.srcEnd } := by
  have hloop : countLoop (s.srcLeft / 8) s.dropAll.clearFreq =
      { s.dropAll.clearFreq with freq := countsOf s.bytesLeft, srcPos := s.srcEnd } := by
    rw [← bytesLeft_length]
    exact countLoop_eq (s := s.dropAll.clearFreq) (read := []) rfl (clearFreq_freq_eq_countsOf s.dropAll)
  have hbody : fcountBody s = .ok { countLoop (s.srcLeft / 8) s.dropAll.clearFreq with freqValid := true } :=
    if_neg (Nat.not_lt.mpr hlen)
  refine (issue_idle hrun).trans ?_
  rw [hbody, hloop]
  exact finish_ok hrun

/-- Settles O20: the table `FCOUNT` leaves is the counts of the bytes left, of which the other clauses are facts. -/
theorem fcountResult : Obligations.FcountResult := by
  refine ⟨rfl, fun s hrun hlen => ⟨countsOf s.bytesLeft, exec_fcount hrun hlen, countsOf_eofSymbol _,
    countsOf_dataSymbol _, countsOf_sum _, leafList_length_pos (y := Config.eofSymbol) ?_, leafList_length_le _,
    bytesLeft_of_srcPos_zero⟩⟩
  rw [countsOf_eofSymbol]
  exact Nat.one_pos

end Sys2Proof.Machine
end

section
/-!
`extract_min()` (`41_tree_builder.md` R133, R136): the key order is a strict total order on the indices, so the recursion over
the members of the priority structure ends at the one below all others.
-/

namespace Sys2Proof.Machine

/-! ### The key order -/

theorem keyLt_iff {w : Nat → Nat} {i j : Nat} : keyLt w i j = true ↔ w i < w j ∨ (w i = w j ∧ i < j) := by
  simp only [keyLt, Bool.or_eq_true, Bool.and_eq_true, decide_eq_true_eq]

theorem keyLt_trans {w : Nat → Nat} {i j k : Nat} (hij : keyLt w i j = true) (hjk : keyLt w j k = true) :
    keyLt w i k = true := by
  rw [keyLt_iff] at *
  omega

/-- The key order is total on different indices (R133). -/
theorem keyLt_of_not_keyLt {w : Nat → Nat} {i j : Nat} (h : ¬ keyLt w j i = true) (hne : i ≠ j) :
    keyLt w i j = true := by
  rw [keyLt_iff] at *
  omega

/-! ### The member with the least key -/

theorem leastMember_eq_none_iff {w : Nat → Nat} {l : List Nat} : leastMember w l = none ↔ l = [] := by
  cases l with
  | nil => simp [leastMember]
  | cons i rest =>
    rw [leastMember]
    split
    · simp
    · split <;> simp

/-- What `leastMember` answers is in the list and has a smaller key than everything else there (R133). -/
theorem leastMember_spec {w : Nat → Nat} {l : List Nat} {i : Nat} (h : leastMember w l = some i) :
    i ∈ l ∧ ∀ k ∈ l, k ≠ i → keyLt w i k = true := by
  induction l generalizing i with
  | nil => cases h
  | cons a rest ih =>
    rw [leastMember] at h
    split at h
    next hrest =>
      cases h
      rw [leastMember_eq_none_iff.mp hrest]
      exact ⟨List.mem_singleton_self a, fun k hk hne => absurd (List.mem_singleton.mp hk) hne⟩
    next j hrest =>
      obtain ⟨hmem, hleast⟩ := ih hrest
      split at h
      next hja =>
        cases h
        refine ⟨List.mem_cons_of_mem a hmem, fun k hk hne => ?_⟩
        rcases List.mem_cons.mp hk with rfl | hk
        · exact hja
        · exact hleast k hk hne
      next hja =>
        cases h
        refine ⟨List.mem_cons_self, fun k hk hne => ?_⟩
        have hk : k ∈ rest := (List.mem_cons.mp hk).resolve_left hne
        by_cases hkj : k = j
        · exact hkj ▸ keyLt_of_not_keyLt hja (hkj ▸ hne.symm)
        · have hjk := hleast k hk hkj
          exact keyLt_of_not_keyLt (fun hka => hja (keyLt_trans hjk hka)) hne.symm

/-! ### `extract_min()` -/

/-- What `extract_min()` answers, when it answers (R133). -/
theorem extractMin_spec {s u : State} {i : Nat} (h : extractMin s = some (i, u)) :
    u = s.pqRemove i ∧ i ∈ s.members ∧ ∀ k ∈ s.members, k ≠ i → keyLt s.weightOf i k = true := by
  obtain ⟨j, hj, heq⟩ := Option.map_eq_some_iff.mp h
  obtain ⟨rfl, rfl⟩ := Prod.mk.inj heq
  exact ⟨rfl, leastMember_spec hj⟩

/-- `extract_min()` has an answer exactly when there is a member (R133). -/
theorem extractMin_eq_none_iff {s : State} : extractMin s = none ↔ s.inPq = 0#513 := by
  rw [extractMin, Option.map_eq_none_iff, leastMember_eq_none_iff, members_eq_nil_iff]

/-- Settles O22: a non-empty structure gives an answer, and the answer is the member with the least key. -/
theorem extractMinTakesTheLeast : Obligations.ExtractMinTakesTheLeast := by
  intro s hne
  obtain ⟨⟨i, u⟩, hmin⟩ := Option.ne_none_iff_exists'.mp (mt extractMin_eq_none_iff.mp hne)
  obtain ⟨rfl, hmem, hleast⟩ := extractMin_spec hmin
  have hbit : s.inPq.getLsbD i = true := mem_members.mp hmem
  exact ⟨i, hmin, BitVec.lt_of_getLsbD hbit, hbit, fun j hj hji => keyLt_iff.mp (hleast j (mem_members.mpr hj) hji)⟩

end Sys2Proof.Machine
end

section
/-!
`CGEN` (`42_tree_codec.md` R150 to R152): the walk over a stored tree writes the path of every leaf, and no path of a
tree begins with that of another leaf.
-/

namespace Sys2Proof.Machine

/-! ### The paths of a tree -/

theorem Shape.paths_map_fst (t : Shape) : t.paths.map Prod.fst = t.syms := by
  induction t with
  | leaf v => rfl
  | node l r hl hr =>
    rw [Shape.paths, Shape.syms, ← hl, ← hr, List.map_append, List.map_map, List.map_map]
    rfl

theorem Shape.mem_syms {t : Shape} {v : SymField} : v ∈ t.syms ↔ ∃ p, (v, p) ∈ t.paths := by
  rw [← t.paths_map_fst, List.mem_map]
  exact ⟨fun ⟨e, he, hv⟩ => ⟨e.2, hv ▸ he⟩, fun ⟨p, hp⟩ => ⟨(v, p), hp, rfl⟩⟩

theorem Shape.mem_paths_node {l r : Shape} {v : SymField} {p : List Bool} :
    (v, p) ∈ (Shape.node l r).paths ↔
      (∃ q, (v, q) ∈ l.paths ∧ p = false :: q) ∨ ∃ q, (v, q) ∈ r.paths ∧ p = true :: q := by
  simp [Shape.paths, eq_comm]

/-- In a tree only the path of a leaf itself begins with its path (R152). -/
theorem Shape.eq_of_path_prefix {t : Shape} {v x : SymField} {p q : List Bool} (hp : (v, p) ∈ t.paths)
    (hq : (x, q) ∈ t.paths) (hpq : p <+: q) : v = x := by
  induction t generalizing p q with
  | leaf y =>
    obtain ⟨rfl, -⟩ := Prod.mk.inj (List.mem_singleton.mp hp)
    obtain ⟨rfl, -⟩ := Prod.mk.inj (List.mem_singleton.mp hq)
    rfl
  | node l r hl hr =>
    obtain ⟨p', hp', rfl⟩ | ⟨p', hp', rfl⟩ := mem_paths_node.mp hp
    · obtain ⟨q', hq', rfl⟩ | ⟨q', hq', rfl⟩ := mem_paths_node.mp hq
      · exact hl hp' hq' (List.cons_prefix_cons.mp hpq).2
      · cases (List.cons_prefix_cons.mp hpq).1
    · obtain ⟨q', hq', rfl⟩ | ⟨q', hq', rfl⟩ := mem_paths_node.mp hq
      · cases (List.cons_prefix_cons.mp hpq).1
      · exact hr hp' hq' (List.cons_prefix_cons.mp hpq).2

/-- A path is shorter than the number of leaves (R151). -/
theorem Shape.path_length_lt {t : Shape} {v : SymField} {p : List Bool} (hp : (v, p) ∈ t.paths) :
    p.length < t.leaves := by
  induction t generalizing p with
  | leaf y =>
    obtain ⟨-, rfl⟩ := Prod.mk.inj (List.mem_singleton.mp hp)
    exact Nat.one_pos
  | node l r hl hr =>
    have := l.leaves_pos
    have := r.leaves_pos
    rw [Shape.leaves]
    obtain ⟨q, hq, rfl⟩ | ⟨q, hq, rfl⟩ := mem_paths_node.mp hp <;> rw [List.length_cons]
    · have := hl hq
      omega
    · have := hr hq
      omega

theorem Shape.syms_length (t : Shape) : t.syms.length = t.leaves := by
  induction t with
  | leaf v => rfl
  | node l r hl hr => rw [Shape.syms, Shape.leaves, List.length_append, hl, hr]

/-- A tree with distinct symbols has at most one leaf for each of the 257 (R8). -/
theorem Shape.leaves_le {t : Shape} (hok : t.symbolsOk) (hnodup : t.syms.Nodup) : t.leaves ≤ 257 := by
  have hsub : t.syms.map BitVec.toNat ⊆ List.range 257 := fun k hk => by
    obtain ⟨v, hv, rfl⟩ := List.mem_map.mp hk
    exact List.mem_range.mpr (Nat.lt_succ_of_le (hok v hv))
  have hle := ((hnodup.map fun _ _ => BitVec.eq_of_toNat_eq).subperm hsub).length_le
  rwa [List.length_map, List.length_range, syms_length] at hle

/-- The paths of a tree whose top is reached by the path `p` (R150). -/
def Shape.pathsFrom (t : Shape) (p : List Bool) : List (SymField × List Bool) := t.paths.map fun e => (e.1, p ++ e.2)

@[simp] theorem Shape.pathsFrom_nil (t : Shape) : t.pathsFrom [] = t.paths := by
  simp [Shape.pathsFrom]

@[simp] theorem Shape.pathsFrom_leaf (v : SymField) (p : List Bool) : (Shape.leaf v).pathsFrom p = [(v, p)] := by
  simp [Shape.pathsFrom, Shape.paths]

theorem Shape.pathsFrom_node (l r : Shape) (p : List Bool) :
    (Shape.node l r).pathsFrom p = l.pathsFrom (p ++ [false]) ++ r.pathsFrom (p ++ [true]) := by
  simp [Shape.pathsFrom, Shape.paths, Function.comp_def]

/-! ### Writes of the code table -/

/-- The entry of the code table for a symbol (R29). -/
def State.codeEntry (s : State) (y : Symbol) : Bool × CodeLen × CodeVal := (s.codeHas[y], s.codeLen[y], s.codeVal[y])

/-- The entry that `CGEN` writes for the path `p` (R150). -/
def codeEntryOf (p : List Bool) : Bool × CodeLen × CodeVal := (true, BitVec.ofNat 9 p.length, BitVec.ofNat 256 (val p))

theorem codeEntry_setCode (s : State) (y z : Symbol) (p : List Bool) :
    (s.setCode y p).codeEntry z = if y = z then codeEntryOf p else s.codeEntry z := by
  simp only [State.codeEntry, codeEntryOf, State.setCode_codeHas, State.setCode_codeLen, State.setCode_codeVal,
    Fin.getElem_fin, Vector.getElem_set, Fin.val_inj]
  split <;> rfl

/-- The field of a symbol is the one that denotes it (R98). -/
theorem symbol?_eq_some_iff_ofNat {v : SymField} {y : Symbol} : symbol? v = some y ↔ v = BitVec.ofNat 9 y.val := by
  have := y.isLt
  rw [symbol?_eq_some]
  bv_omega

/-- The symbol of a field that is not reserved (R98). -/
theorem exists_symbol?_eq_some {v : SymField} (h : v.toNat ≤ 256) : ∃ y, symbol? v = some y :=
  ⟨⟨v.toNat, Nat.lt_succ_of_le h⟩, symbol?_eq_some.mpr rfl⟩

/-- Writes the code of the leaf `e.1`, the path `e.2` (R150); a reserved field has no code. -/
def State.setLeafCode (s : State) (e : SymField × List Bool) : State :=
  match symbol? e.1 with
  | none => s
  | some y => s.setCode y e.2

/-- Writes the codes of leaves, one after another. -/
def State.setCodes (s : State) (l : List (SymField × List Bool)) : State := l.foldl State.setLeafCode s

theorem setLeafCode_eq_setCode {v : SymField} {y : Symbol} (h : symbol? v = some y) (s : State) (p : List Bool) :
    s.setLeafCode (v, p) = s.setCode y p := by
  simp only [State.setLeafCode, h]

theorem codeEntry_setLeafCode (s : State) (v : SymField) (p : List Bool) (z : Symbol) :
    (s.setLeafCode (v, p)).codeEntry z = if v = BitVec.ofNat 9 z.val then codeEntryOf p else s.codeEntry z := by
  simp only [← symbol?_eq_some_iff_ofNat]
  cases hv : symbol? v with
  | none => simp only [State.setLeafCode, hv, reduceCtorEq, if_false]
  | some y => simp only [setLeafCode_eq_setCode hv, codeEntry_setCode, Option.some.injEq]

theorem setCodes_cons (s : State) (e : SymField × List Bool) (l : List (SymField × List Bool)) :
    s.setCodes (e :: l) = (s.setLeafCode e).setCodes l := rfl

theorem setCodes_append (s : State) (l m : List (SymField × List Bool)) :
    s.setCodes (l ++ m) = (s.setCodes l).setCodes m := List.foldl_append

/-- Writing codes changes nothing but the code table (R150). -/
theorem setCodes_frame (s : State) (l : List (SymField × List Bool)) :
    s.setCodes l =
      { s with
        codeHas := (s.setCodes l).codeHas, codeLen := (s.setCodes l).codeLen, codeVal := (s.setCodes l).codeVal } := by
  induction l generalizing s with
  | nil => rfl
  | cons e l ih =>
    rw [setCodes_cons, ih, State.setLeafCode]
    split <;> rfl

@[simp] theorem setCodes_nodes (s : State) (l : List (SymField × List Bool)) : (s.setCodes l).nodes = s.nodes :=
  (congrArg State.nodes (setCodes_frame s l)).trans rfl

@[simp] theorem setCodes_run (s : State) (l : List (SymField × List Bool)) : (s.setCodes l).run = s.run :=
  (congrArg State.run (setCodes_frame s l)).trans rfl

/-- Writing the codes of other symbols keeps the entry of a symbol. -/
theorem codeEntry_setCodes_of_notMem {s : State} {l : List (SymField × List Bool)} {y : Symbol}
    (h : BitVec.ofNat 9 y.val ∉ l.map Prod.fst) : (s.setCodes l).codeEntry y = s.codeEntry y := by
  induction l generalizing s with
  | nil => rfl
  | cons e l ih =>
    obtain ⟨hhead, htail⟩ := List.ne_and_not_mem_of_not_mem_cons h
    rw [setCodes_cons, ih htail, codeEntry_setLeafCode, if_neg hhead.symm]

/-- Among codes of distinct symbols, the one written for a symbol is the one its entry holds. -/
theorem codeEntry_setCodes_of_mem {s : State} {l : List (SymField × List Bool)} {y : Symbol} {p : List Bool}
    (hnodup : (l.map Prod.fst).Nodup) (h : (BitVec.ofNat 9 y.val, p) ∈ l) :
    (s.setCodes l).codeEntry y = codeEntryOf p := by
  induction l generalizing s with
  | nil => cases h
  | cons e l ih =>
    obtain ⟨hhead, htail⟩ := List.nodup_cons.mp hnodup
    rw [setCodes_cons]
    rcases List.mem_cons.mp h with rfl | h
    · rw [codeEntry_setCodes_of_notMem hhead, codeEntry_setLeafCode, if_pos rfl]
    · exact ih htail h

/-- An entry written for a path of at most 256 bits is the code of that path (R29, R151). -/
theorem codeOf_of_codeEntry {s : State} {y : Symbol} {p : List Bool} (h : s.codeEntry y = codeEntryOf p)
    (hp : p.length ≤ 256) : s.codeLen[y].toNat = p.length ∧ s.codeVal[y].toNat = val p ∧ s.codeOf y = p := by
  obtain ⟨-, hlen, hval⟩ : _ ∧ s.codeLen[y] = BitVec.ofNat 9 p.length ∧ s.codeVal[y] = BitVec.ofNat 256 (val p) := by
    simpa only [State.codeEntry, codeEntryOf, Prod.mk.injEq] using h
  have hlen' : s.codeLen[y].toNat = p.length := by
    rw [hlen, BitVec.toNat_ofNat, Nat.mod_eq_of_lt (by omega)]
  have hval' : s.codeVal[y].toNat = val p := by
    rw [hval, BitVec.toNat_ofNat, Nat.mod_eq_of_lt ((val_lt p).trans_le (Nat.pow_le_pow_right Nat.two_pos hp))]
  exact ⟨hlen', hval', by rw [State.codeOf, hlen', hval', bits_val]⟩

/-- In an empty code table the codes of a tree with distinct symbols are the tree's codes (R150, R151). -/
theorem codesOf_setCodes_paths {s : State} {t : Shape} (hempty : ∀ y : Symbol, s.codeHas[y] = false) (hok : t.symbolsOk)
    (hnodup : t.syms.Nodup) : CodesOf (s.setCodes t.paths) t := by
  have hmem : ∀ (y : Symbol) (p : List Bool), (BitVec.ofNat 9 y.val, p) ∈ t.paths →
      (s.setCodes t.paths).codeEntry y = codeEntryOf p := fun y p =>
    codeEntry_setCodes_of_mem (t.paths_map_fst.symm ▸ hnodup)
  refine ⟨fun y => ⟨fun hhas => ?_, fun hy => ?_⟩, fun y p hp => ?_⟩
  · by_contra hy
    have hkept : (s.setCodes t.paths).codeHas[y] = s.codeHas[y] :=
      congrArg Prod.fst (codeEntry_setCodes_of_notMem (t.paths_map_fst.symm ▸ hy))
    rw [hkept, hempty] at hhas
    cases hhas
  · obtain ⟨p, hp⟩ := Shape.mem_syms.mp hy
    exact congrArg Prod.fst (hmem y p hp)
  · have hlen := Shape.path_length_lt hp
    have hle := Shape.leaves_le hok hnodup
    exact codeOf_of_codeEntry (hmem y p hp) (by omega)

/-! ### `CGEN` -/

theorem storedIn_leaf {s : State} {i : NodeIdx} {v : SymField} (h : (ITree.leaf i v).storedIn s.nodes = true) :
    ∃ n, s.node? i = some n ∧ n.leaf = true ∧ n.sym = v := by
  rw [ITree.storedIn] at h
  split at h
  · cases h
  next n hn =>
    simp only [Bool.and_eq_true, beq_iff_eq] at h
    obtain ⟨hleaf, hsym, -⟩ := h
    exact ⟨n, hn, hleaf, hsym⟩

theorem storedIn_node {s : State} {i : NodeIdx} {l r : ITree} (h : (ITree.node i l r).storedIn s.nodes = true) :
    (∃ n, s.node? i = some n ∧ n.leaf = false ∧ n.left = l.top ∧ n.right = r.top) ∧
      l.storedIn s.nodes = true ∧ r.storedIn s.nodes = true := by
  rw [ITree.storedIn] at h
  split at h
  · cases h
  next n hn =>
    simp only [Bool.and_eq_true, Bool.not_eq_true', beq_iff_eq] at h
    obtain ⟨hleaf, hleft, hright, hl, hr⟩ := h
    exact ⟨⟨n, hn, hleaf, hleft, hright⟩, hl, hr⟩

theorem walk_leaf {s : State} {i : NodeIdx} {n : Node} {y : Symbol} (d : Nat) (p : List Bool) (hn : s.node? i = some n)
    (hleaf : n.leaf = true) (hy : symbol? n.sym = some y) : walk (d + 1) i p s = .ok (s.setCode y p) := by
  simp only [walk, hn, hleaf, if_true, hy]

theorem walk_internal {s : State} {i : NodeIdx} {n : Node} (d : Nat) (p : List Bool) (hn : s.node? i = some n)
    (hleaf : n.leaf = false) :
    walk (d + 1) i p s = (walk d n.left (p ++ [false]) s).andThen (walk d n.right (p ++ [true])) := by
  simp only [walk, hn, hleaf, Bool.false_eq_true, if_false]

/-- The walk over a stored tree writes its paths, when at least as many nested calls are left as the tree has leaves
(R150, R32 (b)). -/
theorem walk_eq_setCodes {t : ITree} {s : State} {d : Nat} (p : List Bool) (hstored : t.storedIn s.nodes = true)
    (hok : t.shape.symbolsOk) (hd : t.shape.leaves ≤ d) :
    walk d t.top p s = .ok (s.setCodes (t.shape.pathsFrom p)) := by
  obtain ⟨d, rfl⟩ := Nat.exists_eq_add_of_le' (t.shape.leaves_pos.trans hd)
  induction t generalizing s d p with
  | leaf i v =>
    obtain ⟨n, hn, hleaf, rfl⟩ := storedIn_leaf hstored
    obtain ⟨y, hy⟩ := exists_symbol?_eq_some (hok n.sym (List.mem_singleton_self _))
    rw [ITree.top, walk_leaf d p hn hleaf hy, ITree.shape, Shape.pathsFrom_leaf, ← setLeafCode_eq_setCode hy]
    rfl
  | node i l r hl hr =>
    obtain ⟨⟨n, hn, hleaf, hleft, hright⟩, hstoredL, hstoredR⟩ := storedIn_node hstored
    obtain ⟨hokL, hokR⟩ := List.forall_mem_append.mp hok
    have hposL := l.shape.leaves_pos
    have hposR := r.shape.leaves_pos
    rw [ITree.shape, Shape.leaves] at hd
    obtain ⟨d, rfl⟩ := Nat.exists_eq_add_of_le' (show 1 ≤ d by omega)
    rw [ITree.top, walk_internal (d + 1) p hn hleaf, hleft, hright, hl _ hstoredL hokL d (by omega), andThen_ok,
      hr _ (by rwa [setCodes_nodes]) hokR d (by omega), ITree.shape, Shape.pathsFrom_node, setCodes_append]

/-- `CGEN` on a built tree with distinct symbols empties the code table and writes the paths of the tree (R150). -/
theorem exec_cgen {s : State} {t : ITree} (hrun : s.run = .idle) (hbuilt : s.treeState = .built) (htree : HoldsTree s t)
    (hnodup : t.shape.syms.Nodup) :
    exec .cgen s =
      .next { { s with codeValid := false }.clearCodes.setCodes t.shape.paths with codeValid := true } := by
  obtain ⟨htop, hstored, -, -, -, hok⟩ := htree
  have hwalk := walk_eq_setCodes (s := { s with codeValid := false }.clearCodes) [] hstored hok
    (show _ ≤ Config.stackDepth from (Shape.leaves_le hok hnodup).trans (by decide))
  rw [htop] at hwalk
  have hbody : cgenBody s =
      .ok { { s with codeValid := false }.clearCodes.setCodes t.shape.paths with codeValid := true } := by
    rw [cgenBody, decide_eq_true hbuilt, require_true, andThen_ok, hwalk, andThen_ok, Shape.pathsFrom_nil]
  refine (issue_idle hrun).trans ?_
  rw [hbody]
  exact finish_ok ((setCodes_run _ _).trans hrun)

/-- After `CGEN` the code table holds the codes of the tree (R150, R151). -/
theorem codesOf_of_exec_cgen {s u : State} {t : ITree} (hrun : s.run = .idle) (hbuilt : s.treeState = .built)
    (htree : HoldsTree s t) (hnodup : t.shape.syms.Nodup) (hexec : exec .cgen s = .next u) : CodesOf u t.shape := by
  rw [exec_cgen hrun hbuilt htree hnodup] at hexec
  obtain ⟨-, -, -, -, -, hok⟩ := htree
  cases hexec
  exact codesOf_setCodes_paths (s := { s with codeValid := false }.clearCodes) (fun y => Vector.getElem_replicate _) hok
    hnodup

/-- In a table that holds the codes of a tree no code begins with another symbol's code (R152). -/
theorem CodesOf.eq_of_codeOf_prefix {u : State} {t : Shape} (hcodes : CodesOf u t) {y z : Symbol}
    (hy : u.codeHas[y] = true) (hz : u.codeHas[z] = true) (hyz : u.codeOf y <+: u.codeOf z) : y = z := by
  obtain ⟨hhas, hcode⟩ := hcodes
  obtain ⟨p, hp⟩ := Shape.mem_syms.mp ((hhas y).mp hy)
  obtain ⟨q, hq⟩ := Shape.mem_syms.mp ((hhas z).mp hz)
  obtain ⟨-, -, hcodeY⟩ := hcode y p hp
  obtain ⟨-, -, hcodeZ⟩ := hcode z q hq
  rw [hcodeY, hcodeZ] at hyz
  have hfield := Shape.eq_of_path_prefix hp hq hyz
  exact Option.some.inj ((symbol?_eq_some_iff_ofNat.mpr rfl).symm.trans (symbol?_eq_some_iff_ofNat.mpr hfield))

/-- Settles O28: the codes are the paths of the tree, and only the path of a leaf itself begins with that leaf's
path. -/
theorem codesArePrefixFree : Obligations.CodesArePrefixFree := by
  intro s u t hrun hbuilt htree hnodup hexec y z hy hz hne hprefix
  exact hne ((codesOf_of_exec_cgen hrun hbuilt htree hnodup hexec).eq_of_codeOf_prefix hy hz hprefix)

end Sys2Proof.Machine
end

section
/-!
`RMAGIC` (`43_tree_decoder.md` R170, `60_exceptions.md` R251): a field of the stream is read back as its value, and a read
that finds too few bits, or a value that is not `MAGIC`, raises.
-/

namespace Sys2Proof.Machine

/-- A field that stands next in the source is read as its value (R62). -/
theorem readBits_field {w : Nat} {s : State} {m : BitVec w} {rest : List Bool} (hw : 0 < w)
    (h : s.srcBits.drop s.srcPos = bits w m.toNat ++ rest) :
    readBits w s = (some m, { s with srcPos := s.srcPos + w }) := by
  have hlen := congrArg List.length h
  rw [List.length_drop, srcBits_length, List.length_append, bits_length] at hlen
  rw [readBits_append h (bits_length _ _) (by omega), val_bits_of_lt m.isLt, BitVec.ofNat_toNat, BitVec.setWidth_eq]

/-- A read wider than the bits left answers `EOS` (R63). -/
theorem readBits_of_length_lt {w : Nat} {s : State} (h : (s.srcBits.drop s.srcPos).length < w) :
    readBits w s = (none, { s with srcPos := s.srcEnd }) := by
  rw [List.length_drop, srcBits_length] at h
  exact readBits_short (by omega)

theorem rmagicBody_of_eos {s s1 : State} (h : readBits 32 s = (none, s1)) : rmagicBody s = .raised .badMagic s1 := by
  rw [rmagicBody, h]

theorem rmagicBody_of_read {s s1 : State} {m : BitVec 32} (h : readBits 32 s = (some m, s1)) :
    rmagicBody s = checkMagic m s1 := by
  rw [rmagicBody, h]

/-- The end of the magic check in `IDLE` (R170). -/
theorem finish_checkMagic {s : State} (m : BitVec 32) (hrun : s.run = .idle) :
    finish (checkMagic m s) = if m = s.cfg.magic then .next s else .next (errorEntry .badMagic s) := by
  unfold checkMagic
  split
  next hm => rw [decide_eq_true hm, require_true, finish_ok hrun]
  next hm => rw [decide_eq_false hm, require_false, finish_raised]

/-- `RMAGIC` on a whole field moves past it, and the check decides (R170). -/
theorem exec_rmagic_field {s : State} {m : BitVec 32} {rest : List Bool} (hrun : s.run = .idle)
    (h : s.srcBits.drop s.srcPos = bits 32 m.toNat ++ rest) :
    exec .rmagic s =
      if m = s.cfg.magic then .next { s with srcPos := s.srcPos + 32 }
      else .next (errorEntry .badMagic { s with srcPos := s.srcPos + 32 }) := by
  refine (issue_idle hrun).trans ?_
  rw [rmagicBody_of_read (readBits_field (by decide) h)]
  exact finish_checkMagic m hrun

/-- `RMAGIC` on fewer than 32 bits raises at the end of the source (R251). -/
theorem exec_rmagic_short {s : State} (hrun : s.run = .idle) (h : (s.srcBits.drop s.srcPos).length < 32) :
    exec .rmagic s = .next (errorEntry .badMagic { s with srcPos := s.srcEnd }) := by
  refine (issue_idle hrun).trans ?_
  rw [rmagicBody_of_eos (readBits_of_length_lt h), finish_raised]

/-- Settles O30: with a whole field left `RMAGIC` compares it with `MAGIC`, and with less the read answers `EOS`. -/
theorem rmagicResult : Obligations.RmagicResult :=
  ⟨rfl, fun _ hrun => ⟨fun _ _ => exec_rmagic_field hrun, exec_rmagic_short hrun⟩⟩

end Sys2Proof.Machine
end

section
/-!
`WMAGIC` and `REWIND` (`44_bitstream_encoder.md` R190, R191): each ends in one line that writes one field of the state, behind
the precondition of an open sink for `WMAGIC` and none for `REWIND`.
-/

namespace Sys2Proof.Machine

/-- `WMAGIC` on an open sink writes the 32 bits of `MAGIC` (R190). -/
theorem exec_wmagic_open {s : State} (hrun : s.run = .idle) (hopen : s.snkClosed = false) :
    exec .wmagic s = .next (s.writeBits 32 s.cfg.magic.toNat) := by
  have hbody : wmagicBody s = .ok (s.writeBits 32 s.cfg.magic.toNat) := by
    simp only [wmagicBody, State.sinkOpen, hopen, Bool.not_false, require_true, andThen_ok]
  exact (issue_idle hrun).trans (by rw [hbody]; exact finish_ok hrun)

/-- `WMAGIC` on a closed sink raises `SEQ_ERROR` and has changed nothing before (R190, R256). -/
theorem exec_wmagic_closed {s : State} (hrun : s.run = .idle) (hclosed : s.snkClosed = true) :
    exec .wmagic s = .next (errorEntry .seqError s) := by
  have hbody : wmagicBody s = .raised .seqError s := by
    simp only [wmagicBody, State.sinkOpen, hclosed, Bool.not_true, require_false, andThen_raised]
  exact (issue_idle hrun).trans (by rw [hbody, finish_raised])

/-- `REWIND` moves the source to its start (R191). -/
theorem exec_rewind {s : State} (hrun : s.run = .idle) : exec .rewind s = .next s.rewindToStart :=
  (issue_idle hrun).trans (finish_ok (s := s.rewindToStart) hrun)

/-- Settles O35: the precondition decides between the one write of `WMAGIC`, whose next state is `writeBits` written out, and
the error entry. -/
theorem wmagicResult : Obligations.WmagicResult :=
  ⟨rfl, fun _ hrun => ⟨exec_wmagic_open hrun, exec_wmagic_closed hrun⟩⟩

/-- Settles O36: `REWIND` has no precondition, and its next state is `rewindToStart` written out. -/
theorem rewindResult : Obligations.RewindResult :=
  ⟨rfl, fun _ hrun => exec_rewind hrun⟩

end Sys2Proof.Machine
end

section
/-!
`DECODE` on a one-leaf tree (`45_bitstream_decoder.md` R211): the cursor stands on the root, a leaf, so no bit is read and the
symbol of this leaf alone decides.
-/

namespace Sys2Proof.Machine

/-- A condition that ends a command decides in `IDLE` between the unchanged state and the error entry (R25, R257). -/
theorem finish_require {p : Prop} [Decidable p] {why : Reason} {s : State} (hrun : s.run = .idle) :
    finish (require (decide p) why s) = if p then .next s else .next (errorEntry why s) := by
  split
  next hp => rw [decide_eq_true hp, require_true, finish_ok hrun]
  next hp => rw [decide_eq_false hp, require_false, finish_raised]

/-- Past its precondition, `DECODE` at a root that is a leaf only asks whether the leaf holds the sentinel (R211). -/
theorem decodeBody_of_root_leaf {s : State} {n : Node} (htree : s.treeState ≠ .none) (hopen : s.snkClosed = false)
    (hroot : s.node? s.root = some n) (hleaf : n.leaf = true) :
    decodeBody s = require (decide (n.sym = Config.pseudoEof)) .degenerateTree s := by
  have hready : (s.hasTree && s.sinkOpen) = true := by
    rw [State.hasTree, State.sinkOpen, decide_eq_true htree, hopen]
    rfl
  rw [decodeBody, hready, require_true, andThen_ok]
  simp only [hroot, hleaf, if_true]

/-- Settles O42: a stored one-leaf tree has its leaf at the root, and the sentinel test on it ends the command. -/
theorem decodeSingleLeaf : Obligations.DecodeSingleLeaf := by
  intro s i v hrun htree hopen hholds
  obtain ⟨htop, hstored, -⟩ := hholds
  obtain ⟨n, hn, hleaf, rfl⟩ := storedIn_leaf hstored
  have hroot : s.node? s.root = some n := htop ▸ hn
  refine (issue_idle hrun).trans ?_
  rw [decodeBody_of_root_leaf htree hopen hroot hleaf]
  exact finish_require hrun

end Sys2Proof.Machine
end

section
/-!
Trees and forests in node memory (`10_state.md` R28, R34): the entries of a tree, and that a write elsewhere keeps it.
-/

namespace Sys2Proof.Machine

theorem ITree.indices_eq_cons (t : ITree) : ∃ l, t.indices = t.top.toNat :: l := by
  cases t with
  | leaf i v => exact ⟨[], rfl⟩
  | node i l r => exact ⟨_, rfl⟩

/-- A tree has an entry for each leaf and each internal node, of which there is one fewer (R94). -/
theorem ITree.indices_length (t : ITree) : t.indices.length + 1 = 2 * t.shape.leaves := by
  induction t with
  | leaf i v => rfl
  | node i l r hl hr =>
    simp only [ITree.indices, ITree.shape, Shape.leaves, List.length_cons, List.length_append]
    omega

/-- Whether node memory holds a tree depends on the tree's own entries alone. -/
theorem storedIn_congr {t : ITree} {m m' : Vector Node 513} (h : ∀ k ∈ t.indices, m'[k]? = m[k]?) :
    t.storedIn m' = t.storedIn m := by
  induction t with
  | leaf i v => rw [ITree.storedIn, ITree.storedIn, h _ (List.mem_singleton_self _)]
  | node i l r hl hr =>
    simp only [ITree.indices, List.mem_cons, List.mem_append] at h
    rw [ITree.storedIn, ITree.storedIn, h _ (.inl rfl), hl fun k hk => h k (.inr (.inl hk)),
      hr fun k hk => h k (.inr (.inr hk))]

theorem storedIn_set {t : ITree} {m : Vector Node 513} {e : Fin 513} {n : Node} (h : e.val ∉ t.indices) :
    t.storedIn (m.set e n) = t.storedIn m :=
  storedIn_congr fun _ hk => Vector.getElem?_set_ne _ fun he => h (he ▸ hk)

/-- The entry of a leaf holds the leaf (R28). -/
theorem storedIn_leaf_of_entry {m : Vector Node 513} {i : NodeIdx} {v : SymField} {w : Nat}
    (h : m[i.toNat]? = some ⟨true, v, Config.nil, Config.nil, w⟩) : (ITree.leaf i v).storedIn m = true := by
  rw [ITree.storedIn, h]
  simp

/-- The entry of an internal node and its two subtrees make up the tree (R28). -/
theorem storedIn_node_of_entry {m : Vector Node 513} {i : NodeIdx} {l r : ITree} {y : SymField} {w : Nat}
    (h : m[i.toNat]? = some ⟨false, y, l.top, r.top, w⟩) (hl : l.storedIn m = true) (hr : r.storedIn m = true) :
    (ITree.node i l r).storedIn m = true := by
  rw [ITree.storedIn, h]
  simp [hl, hr]

end Sys2Proof.Machine
end

section
/-!
`TBUILD` (`41_tree_builder.md` R130 to R135): the priority structure holds the tops of the trees of a forest in node
memory. The leaf loop adds one leaf for each present symbol, each turn of the merge loop joins two trees, and the last
tree is the result.
-/

namespace Sys2Proof.Machine

/-! ### The priority structure and the tops of trees -/

/-- The priority structure holds exactly the tops of the trees, each once (R30). -/
abbrev Queued (s : State) (ts : List ITree) : Prop := s.members.Perm (ts.map fun t => t.top.toNat)

theorem queued_nil {s : State} : Queued s [] ↔ s.inPq = 0#513 := by
  rw [Queued, List.map_nil, List.perm_nil, members_eq_nil_iff]

theorem Queued.insert {s : State} {ts : List ITree} {t : ITree} {n : Nat} (h : Queued s ts) (htop : t.top.toNat = n)
    (hn : n < 513) (hnew : n ∉ s.members) : Queued (s.pqInsert n) (t :: ts) := by
  have hmem : (s.pqInsert n).members.Perm (n :: s.members) :=
    (List.perm_ext_iff_of_nodup (members_nodup _) (List.nodup_cons.mpr ⟨hnew, members_nodup s⟩)).mpr fun k =>
      (mem_pqInsert hn).trans List.mem_cons.symm
  rw [Queued, List.map_cons, htop]
  exact hmem.trans (h.cons n)

theorem Queued.remove {s : State} {ts : List ITree} {t : ITree} (h : Queued s (t :: ts)) :
    Queued (s.pqRemove t.top.toNat) ts := by
  obtain ⟨hnew, hnodup⟩ := List.nodup_cons.mp (h.nodup_iff.mp (members_nodup s))
  refine (List.perm_ext_iff_of_nodup (members_nodup _) hnodup).mpr fun k => ?_
  rw [mem_pqRemove, h.mem_iff, List.map_cons, List.mem_cons]
  constructor
  · rintro ⟨hne, hk⟩
    exact hk.resolve_left hne
  · intro hk
    exact ⟨fun he => hnew (show t.top.toNat ∈ _ from he ▸ hk), .inr hk⟩

/-- `extract_min()` takes the top of one of the trees (R133). -/
theorem Queued.extractMin {s : State} {ts : List ITree} (h : Queued s ts) (hne : ts ≠ []) :
    ∃ t us, ts.Perm (t :: us) ∧ extractMin s = some (t.top.toNat, s.pqRemove t.top.toNat) ∧
      Queued (s.pqRemove t.top.toNat) us := by
  have hpq : s.inPq ≠ 0#513 := fun h0 => hne (List.map_eq_nil_iff.mp (h.symm.trans (queued_nil.mpr h0)).eq_nil)
  obtain ⟨⟨i, u⟩, hmin⟩ := Option.ne_none_iff_exists'.mp (mt extractMin_eq_none_iff.mp hpq)
  obtain ⟨rfl, hmem, -⟩ := extractMin_spec hmin
  obtain ⟨t, ht, rfl⟩ := List.mem_map.mp (h.mem_iff.mp hmem)
  have hperm := List.perm_cons_erase ht
  exact ⟨t, ts.erase t, hperm, hmin, Queued.remove (h.trans (hperm.map _))⟩

/-! ### Forests -/

/-- Node memory holds the trees `ts`, whose entries are the first `n`, each in one tree, and whose tops are queued. -/
structure Forest (s : State) (n : Nat) (ts : List ITree) : Prop where
  queued : Queued s ts
  stored : ∀ t ∈ ts, t.storedIn s.nodes = true
  indices : (ts.flatMap ITree.indices).Perm (List.range n)

/-- The symbols of a forest. -/
def forestSyms (ts : List ITree) : List SymField := ts.flatMap fun t => t.shape.syms

@[simp] theorem forestSyms_nil : forestSyms [] = [] := rfl

@[simp] theorem forestSyms_cons (t : ITree) (ts : List ITree) :
    forestSyms (t :: ts) = t.shape.syms ++ forestSyms ts := List.flatMap_cons

theorem Forest.perm {s : State} {n : Nat} {ts us : List ITree} (h : Forest s n ts) (hp : ts.Perm us) :
    Forest s n us where
  queued := h.queued.trans (hp.map _)
  stored t ht := h.stored t (hp.mem_iff.mpr ht)
  indices := (hp.symm.flatMap_right _).trans h.indices

theorem Forest.index_lt {s : State} {n : Nat} {ts : List ITree} (h : Forest s n ts) {t : ITree} (ht : t ∈ ts) {k : Nat}
    (hk : k ∈ t.indices) : k < n :=
  List.mem_range.mp (h.indices.mem_iff.mp (List.mem_flatMap.mpr ⟨t, ht, hk⟩))

theorem Forest.member_lt {s : State} {n : Nat} {ts : List ITree} (h : Forest s n ts) {k : Nat} (hk : k ∈ s.members) :
    k < n := by
  obtain ⟨t, ht, rfl⟩ := List.mem_map.mp (h.queued.mem_iff.mp hk)
  obtain ⟨l, hl⟩ := t.indices_eq_cons
  exact h.index_lt ht (hl ▸ List.mem_cons_self)

/-- A forest has an entry for each leaf, and one for each merge that has been made (R137). -/
theorem Forest.size {s : State} {n : Nat} {ts : List ITree} (h : Forest s n ts) :
    n + ts.length = 2 * (forestSyms ts).length := by
  have hlen : (ts.flatMap ITree.indices).length + ts.length = 2 * (forestSyms ts).length := by
    clear h
    induction ts with
    | nil => rfl
    | cons t ts ih =>
      have := t.indices_length
      rw [List.flatMap_cons, forestSyms_cons, List.length_append, List.length_append, List.length_cons,
        Shape.syms_length]
      omega
  rwa [h.indices.length_eq, List.length_range] at hlen

/-- Writing the first unused entry keeps the trees. -/
theorem Forest.stored_set {s : State} {n : Fin 513} {ts : List ITree} (h : Forest s n ts) (x : Node) {t : ITree}
    (ht : t ∈ ts) : t.storedIn (s.nodes.set n x) = true :=
  (storedIn_set fun hk => Nat.lt_irrefl _ (h.index_lt ht hk)).trans (h.stored t ht)

theorem nodeIdx_toNat (n : Fin 513) : (BitVec.ofNat 10 n.val).toNat = n.val := by
  have := n.isLt
  rw [BitVec.toNat_ofNat, Nat.mod_eq_of_lt (by omega)]

theorem ofNat_toNat_nodeIdx (i : NodeIdx) : BitVec.ofNat 10 i.toNat = i := by
  rw [BitVec.ofNat_toNat, BitVec.setWidth_eq]

/-- A leaf in the next entry is one more tree (R130, R131). -/
theorem Forest.addLeaf {s : State} {n : Fin 513} {ts : List ITree} (h : Forest s n ts) (y : Symbol) :
    Forest (s.addLeaf n y) (n + 1) (.leaf (BitVec.ofNat 10 n.val) (BitVec.ofNat 9 y.val) :: ts) where
  queued := Queued.insert (s := s.setNode n _) h.queued (nodeIdx_toNat n) n.isLt fun hn =>
    Nat.lt_irrefl _ (h.member_lt hn)
  stored t ht := by
    rcases List.mem_cons.mp ht with rfl | ht
    · refine storedIn_leaf_of_entry (w := s.freq[y]) ?_
      rw [nodeIdx_toNat]
      exact Vector.getElem?_set_self n.isLt
    · exact h.stored_set _ ht
  indices := by
    rw [List.flatMap_cons, List.range_succ, ITree.indices, nodeIdx_toNat, List.singleton_append]
    exact (h.indices.cons _).trans (List.perm_append_singleton _ _).symm

/-- Two trees whose tops have been taken from the structure become one in the next entry (R132). -/
theorem Forest.addMerge {s u : State} {n : Fin 513} {a b : ITree} {ts : List ITree} (h : Forest s n (a :: b :: ts))
    (hnodes : u.nodes = s.nodes) (hqueue : Queued u ts) :
    Forest (u.addMerge n a.top.toNat b.top.toNat) (n + 1) (.node (BitVec.ofNat 10 n.val) a b :: ts) where
  queued := by
    refine Queued.insert (s := u.setNode n _) hqueue (nodeIdx_toNat n) n.isLt fun hn => ?_
    obtain ⟨t, ht, htop⟩ := List.mem_map.mp (hqueue.mem_iff.mp hn)
    obtain ⟨l, hl⟩ := t.indices_eq_cons
    have := h.index_lt (List.mem_cons_of_mem _ (List.mem_cons_of_mem _ ht)) (hl ▸ List.mem_cons_self)
    omega
  stored t ht := by
    change t.storedIn (u.nodes.set n _) = true
    rw [hnodes]
    rcases List.mem_cons.mp ht with rfl | ht
    · refine storedIn_node_of_entry (y := Config.freeSym u.freeTick)
        (w := u.weightOf a.top.toNat + u.weightOf b.top.toNat) ?_ (h.stored_set _ (by simp)) (h.stored_set _ (by simp))
      rw [nodeIdx_toNat, ofNat_toNat_nodeIdx, ofNat_toNat_nodeIdx]
      exact Vector.getElem?_set_self n.isLt
    · exact h.stored_set _ (List.mem_cons_of_mem _ (List.mem_cons_of_mem _ ht))
  indices := by
    have hold := h.indices
    simp only [List.flatMap_cons] at hold
    rw [List.flatMap_cons, List.range_succ, ITree.indices, nodeIdx_toNat, List.cons_append, List.append_assoc]
    exact (hold.cons _).trans (List.perm_append_singleton _ _).symm

/-! ### The two loops -/

/-- `u` is `s` but for node memory, the priority structure and the free values used: what the lines of `TBUILD` that
build the tree write (R130). -/
def BuildsFrom (s u : State) : Prop := ∃ nodes pq tick, u = { s with nodes := nodes, inPq := pq, freeTick := tick }

theorem BuildsFrom.refl (s : State) : BuildsFrom s s := ⟨s.nodes, s.inPq, s.freeTick, rfl⟩

theorem BuildsFrom.trans {s u v : State} (h : BuildsFrom s u) (h' : BuildsFrom u v) : BuildsFrom s v := by
  obtain ⟨_, _, _, rfl⟩ := h
  obtain ⟨_, _, _, rfl⟩ := h'
  exact ⟨_, _, _, rfl⟩

theorem buildsFrom_addLeaf (s : State) (n : Fin 513) (y : Symbol) : BuildsFrom s (s.addLeaf n y) :=
  ⟨_, _, s.freeTick, rfl⟩

theorem buildsFrom_addMerge (s : State) (n : Fin 513) (a b : Nat) : BuildsFrom s (s.addMerge n a b) := ⟨_, _, _, rfl⟩

theorem buildsFrom_pqRemove (s : State) (i : Nat) : BuildsFrom s (s.pqRemove i) := ⟨s.nodes, _, s.freeTick, rfl⟩

/-- The fields of those symbols of a list that have a count above zero (R122, R131). -/
def presentFields (freq : Vector Nat 257) (l : List Symbol) : List SymField :=
  (l.filter fun y => decide (0 < freq[y])).map fun y => BitVec.ofNat 9 y.val

theorem presentFields_cons_pos {freq : Vector Nat 257} {y : Symbol} (l : List Symbol) (h : 0 < freq[y]) :
    presentFields freq (y :: l) = BitVec.ofNat 9 y.val :: presentFields freq l := by
  rw [presentFields, List.filter_cons_of_pos (by simpa using h), List.map_cons, presentFields]

theorem presentFields_cons_zero {freq : Vector Nat 257} {y : Symbol} (l : List Symbol) (h : ¬ 0 < freq[y]) :
    presentFields freq (y :: l) = presentFields freq l := by
  rw [presentFields, List.filter_cons_of_neg (by simpa using h), presentFields]

/-- The leaf loop adds one leaf for each symbol of the list that is present (R130, R131). -/
theorem leafLoop_forest {l : List Symbol} {s : State} {n : Nat} {ts : List ITree} (h : Forest s n ts)
    (hroom : n + (presentFields s.freq l).length ≤ 513) :
    ∃ m u us, leafLoop l n s = .ok (m, u) ∧ Forest u m us ∧
      (forestSyms us).Perm (forestSyms ts ++ presentFields s.freq l) ∧ BuildsFrom s u := by
  induction l generalizing s n ts with
  | nil => exact ⟨n, s, ts, rfl, h, by simp [presentFields], .refl s⟩
  | cons y l ih =>
    rw [leafLoop]
    by_cases hy : 0 < s.freq[y]
    · rw [presentFields_cons_pos l hy, List.length_cons] at hroom
      have hn : n < 513 := by omega
      obtain ⟨m, u, us, hloop, hforest, hsyms, hframe⟩ :=
        ih (s := s.addLeaf ⟨n, hn⟩ y) (Forest.addLeaf (n := ⟨n, hn⟩) h y)
          (show n + 1 + (presentFields s.freq l).length ≤ 513 by omega)
      rw [if_pos hy, dif_pos hn, presentFields_cons_pos l hy]
      exact ⟨m, u, us, hloop, hforest, hsyms.trans List.perm_middle.symm,
        (buildsFrom_addLeaf s ⟨n, hn⟩ y).trans hframe⟩
    · rw [presentFields_cons_zero l hy] at hroom ⊢
      rw [if_neg hy]
      exact ih h hroom

/-- One turn of the merge loop, given what its two extractions answer (R132). -/
theorem mergeOnce_of_extractMin {n : Fin 513} {s s1 s2 : State} {a b : Nat} (ha : extractMin s = some (a, s1))
    (hb : extractMin s1 = some (b, s2)) : mergeOnce n s = .ok (s2.addMerge n a b) := by
  unfold mergeOnce
  rw [ha]
  dsimp only
  rw [hb]

/-- One turn of the merge loop on a forest of two or more trees makes one of two of them (R132). -/
theorem mergeOnce_forest {s : State} {n : Fin 513} {ts : List ITree} (h : Forest s n ts) (hts : 2 ≤ ts.length) :
    ∃ a b us u, ts.Perm (a :: b :: us) ∧ mergeOnce n s = .ok u ∧
      Forest u (n + 1) (.node (BitVec.ofNat 10 n.val) a b :: us) ∧ BuildsFrom s u := by
  obtain ⟨a, us, ha, hmin, hqueue⟩ := h.queued.extractMin (List.ne_nil_of_length_pos (Nat.two_pos.trans_le hts))
  have hlen : us.length + 1 = ts.length := ha.length_eq.symm
  have hus : us ≠ [] := List.ne_nil_of_length_pos (by omega)
  obtain ⟨b, vs, hb, hmin', hqueue'⟩ := hqueue.extractMin hus
  have hperm : ts.Perm (a :: b :: vs) := ha.trans (hb.cons a)
  refine ⟨a, b, vs, _, hperm, mergeOnce_of_extractMin hmin hmin',
    (h.perm hperm).addMerge (u := (s.pqRemove a.top.toNat).pqRemove b.top.toNat) rfl hqueue', ?_⟩
  exact ((buildsFrom_pqRemove _ _).trans (buildsFrom_pqRemove _ _)).trans (buildsFrom_addMerge _ n _ _)

/-- On one tree the merge loop ends at once (R132). -/
theorem mergeLoop_one {n : Nat} {s : State} {t : ITree} (free : Nat) (h : Forest s n [t]) :
    mergeLoop free n s = .ok (n, s) :=
  mergeLoop_done free n h.queued.length_eq.le

/-- The merge loop ends with one tree, in which every leaf of the forest stands (R132, R137). -/
theorem mergeLoop_forest {free n : Nat} {s : State} {ts : List ITree} (h : Forest s n ts) (hne : ts ≠ [])
    (hroom : n + ts.length ≤ 514) (hfree : ts.length ≤ free + 1) :
    ∃ m u t, mergeLoop free n s = .ok (m, u) ∧ Forest u m [t] ∧ t.shape.syms.Perm (forestSyms ts) ∧ BuildsFrom s u := by
  induction free generalizing n s ts with
  | zero =>
    obtain ⟨t, rfl⟩ := List.length_eq_one_iff.mp (Nat.le_antisymm hfree (List.length_pos_of_ne_nil hne))
    exact ⟨n, s, t, mergeLoop_one 0 h, h, by simp, .refl s⟩
  | succ free ih =>
    by_cases hone : ts.length ≤ 1
    · obtain ⟨t, rfl⟩ := List.length_eq_one_iff.mp (Nat.le_antisymm hone (List.length_pos_of_ne_nil hne))
      exact ⟨n, s, t, mergeLoop_one _ h, h, by simp, .refl s⟩
    · have hn : n < 513 := by omega
      have hmore : ¬ s.members.length ≤ 1 := by rwa [h.queued.length_eq, List.length_map]
      obtain ⟨a, b, us, u, hperm, hturn, hforest, hframe⟩ := mergeOnce_forest (n := ⟨n, hn⟩) h (by omega)
      have hlen := hperm.length_eq
      simp only [List.length_cons] at hlen
      obtain ⟨m, v, t, hloop, hlast, hsyms, hframe'⟩ := ih hforest (List.cons_ne_nil _ _)
        (show n + 1 + (us.length + 1) ≤ 514 by omega) (show us.length + 1 ≤ free + 1 by omega)
      rw [mergeLoop_turn free hmore hn hturn]
      refine ⟨m, v, t, hloop, hlast, hsyms.trans ?_, hframe.trans hframe'⟩
      simpa [forestSyms, ITree.shape, Shape.syms] using (hperm.flatMap_right fun t => t.shape.syms).symm

/-- The forest before the first line of R130: no tree. -/
theorem forest_nil {s : State} (hpq : s.inPq = 0#513) : Forest s 0 [] where
  queued := queued_nil.mpr hpq
  stored _ ht := absurd ht List.not_mem_nil
  indices := .refl []

theorem mem_presentFields {freq : Vector Nat 257} {v : SymField} :
    v ∈ presentFields freq (List.finRange 257) ↔ ∃ y : Symbol, 0 < freq[y] ∧ v = BitVec.ofNat 9 y.val := by
  simp [presentFields, eq_comm]

theorem ofNat_symbol_toNat (y : Symbol) : (BitVec.ofNat 9 y.val).toNat = y.val := by
  have := y.isLt
  rw [BitVec.toNat_ofNat, Nat.mod_eq_of_lt (by omega)]

theorem presentFields_nodup (freq : Vector Nat 257) : (presentFields freq (List.finRange 257)).Nodup := by
  refine ((List.nodup_finRange 257).filter _).map fun y z hyz => ?_
  rw [Fin.ext_iff, ← ofNat_symbol_toNat y, ← ofNat_symbol_toNat z]
  exact congrArg BitVec.toNat hyz

theorem presentFields_le {freq : Vector Nat 257} {v : SymField} (h : v ∈ presentFields freq (List.finRange 257)) :
    v.toNat ≤ 256 := by
  obtain ⟨y, -, rfl⟩ := mem_presentFields.mp h
  rw [ofNat_symbol_toNat]
  exact Nat.le_of_lt_succ y.isLt

theorem presentFields_length_le (freq : Vector Nat 257) : (presentFields freq (List.finRange 257)).length ≤ 257 := by
  simpa only [presentFields, leafList, List.length_map] using leafList_length_le freq

/-- A forest of one tree, with its top as the root and its entries counted, is a tree in node memory (R34). -/
theorem Forest.holdsTree {s u : State} {n : Nat} {t : ITree} (h : Forest s n [t]) (hn : n ≤ 513)
    (hnodes : u.nodes = s.nodes) (hroot : u.root = t.top) (hcount : u.nodeCount = BitVec.ofNat 10 n)
    (hok : t.shape.symbolsOk) : HoldsTree u t := by
  have hperm : t.indices.Perm (List.range n) := by simpa using h.indices
  have hmem : ∀ k, k ∈ t.indices ↔ k < u.nodeCount.toNat := fun k => by
    rw [hperm.mem_iff, List.mem_range, hcount, BitVec.toNat_ofNat, Nat.mod_eq_of_lt (by omega)]
  exact ⟨hroot.symm, hnodes ▸ h.stored t (List.mem_singleton_self t), hperm.nodup_iff.mpr List.nodup_range,
    fun k => (hmem k).mp, fun k => (hmem k).mpr, hok⟩

/-- The lines of `TBUILD`, given what its loops and its last extraction answer (R130). -/
theorem buildTree_of_loops {s s1 s2 s3 : State} {n m r : Nat}
    (hleaves : leafLoop (List.finRange 257) 0 s = .ok (n, s1))
    (hmerge : mergeLoop (Config.nodeCap - n) n s1 = .ok (m, s2)) (hroot : extractMin s2 = some (r, s3)) :
    buildTree s =
      .ok { s3 with
        root := BitVec.ofNat 10 r, nodeCount := BitVec.ofNat 10 m, freqValid := false, treeState := .built } := by
  unfold buildTree
  rw [hleaves]
  dsimp only
  rw [hmerge]
  dsimp only
  rw [hroot]

/-- The lines of `TBUILD` on an empty priority structure leave node memory with one tree, in which each present symbol
stands once, and the priority structure empty (R130, R131). -/
theorem buildTree_tree {s : State} (hpq : s.inPq = 0#513) {y : Symbol} (hy : 0 < s.freq[y]) :
    ∃ nodes root count tick t,
      buildTree s = .ok
        { s with
          nodes := nodes, root := root, nodeCount := count, freeTick := tick, freqValid := false
          treeState := .built } ∧
      HoldsTree { s with nodes := nodes, root := root, nodeCount := count } t ∧
      t.shape.syms.Perm (presentFields s.freq (List.finRange 257)) := by
  have hle := presentFields_length_le s.freq
  obtain ⟨n, s1, ts, hleaves, hforest, hsyms, hframe⟩ :=
    leafLoop_forest (l := List.finRange 257) (forest_nil hpq) (by omega)
  have hne : ts ≠ [] := by
    rintro rfl
    exact List.not_mem_nil (hsyms.mem_iff.mpr (List.mem_append_right _ (mem_presentFields.mpr ⟨y, hy, rfl⟩)))
  rw [forestSyms_nil, List.nil_append] at hsyms
  have hsize := hforest.size
  rw [hsyms.length_eq] at hsize
  have hpos := List.length_pos_of_ne_nil hne
  obtain ⟨m, s2, t, hmerge, hone, hsyms', hframe'⟩ :=
    mergeLoop_forest (free := Config.nodeCap - n) hforest hne (by omega) (by unfold Config.nodeCap; omega)
  have hperm := hsyms'.trans hsyms
  have hm := hone.size
  rw [forestSyms_cons, forestSyms_nil, List.append_nil, hperm.length_eq, List.length_singleton] at hm
  obtain ⟨t', us, ht', hmin, hempty⟩ := hone.queued.extractMin (List.cons_ne_nil _ _)
  obtain ⟨rfl, rfl⟩ := List.cons.inj (List.singleton_perm.mp ht')
  obtain ⟨nodes, pq, tick, rfl⟩ := hframe.trans hframe'
  refine ⟨nodes, t.top, BitVec.ofNat 10 m, tick, t, ?_, ?_, hperm⟩
  · rw [buildTree_of_loops hleaves hmerge hmin, ofNat_toNat_nodeIdx, hpq, ← queued_nil.mp hempty]
    rfl
  · exact hone.holdsTree (by omega) rfl rfl rfl fun v hv => presentFields_le (hperm.mem_iff.mp hv)

/-- `TBUILD` on a valid frequency table with a symbol present (R130). -/
theorem exec_tbuild {s : State} (hrun : s.run = .idle) (hfreq : s.freqValid = true) (hpq : s.inPq = 0#513) {y : Symbol}
    (hy : 0 < s.freq[y]) :
    ∃ nodes root count tick t,
      exec .tbuild s = .next
        { s with
          nodes := nodes, root := root, nodeCount := count, freeTick := tick, freqValid := false, treeState := .built
          codeValid := false } ∧
      HoldsTree { s with nodes := nodes, root := root, nodeCount := count } t ∧
      t.shape.syms.Perm (presentFields s.freq (List.finRange 257)) := by
  obtain ⟨nodes, root, count, tick, t, hbuild, hholds, hsyms⟩ := buildTree_tree (s := s.dropTree) hpq hy
  refine ⟨nodes, root, count, tick, t, (issue_idle hrun).trans ?_, hholds, hsyms⟩
  rw [tbuildBody, hfreq, require_true, andThen_ok, hbuild]
  exact finish_ok hrun

end Sys2Proof.Machine
end

section
/-!
`CGEN`, `WHDR` and `ENCODE` (`42_tree_codec.md` R150, R153; `44_bitstream_encoder.md` R192) with the whole next state,
on a built tree and its codes.
-/

namespace Sys2Proof.Machine

/-- `CGEN` on a built tree with distinct symbols leaves the codes of the tree and changes nothing but the code table
(R150, R151). -/
theorem exec_cgen_codesOf {s : State} {t : ITree} (hrun : s.run = .idle) (hbuilt : s.treeState = .built)
    (htree : HoldsTree s t) (hnodup : t.shape.syms.Nodup) :
    ∃ has len value tick,
      exec .cgen s = .next
        { s with codeHas := has, codeLen := len, codeVal := value, freeTick := tick, codeValid := true } ∧
      CodesOf { s with codeHas := has, codeLen := len, codeVal := value } t.shape := by
  have hexec := exec_cgen hrun hbuilt htree hnodup
  have hcodes := codesOf_of_exec_cgen hrun hbuilt htree hnodup hexec
  rw [setCodes_frame] at hexec hcodes
  exact ⟨_, _, _, _, hexec, hcodes⟩

theorem symbolsOk_of_holdsTree {s : State} {t : ITree} (h : HoldsTree s t) : t.shape.symbolsOk := by
  obtain ⟨-, -, -, -, -, hok⟩ := h
  exact hok

/-- In a table that holds the codes of a tree every symbol of the tree has a code (R151). -/
theorem CodesOf.codeHas_of_mem {s : State} {t : Shape} (h : CodesOf s t) {y : Symbol}
    (hy : BitVec.ofNat 9 y.val ∈ t.syms) : s.codeHas[y] = true := by
  obtain ⟨hhas, -⟩ := h
  exact (hhas y).mpr hy

/-- In a table that holds the codes of a tree the code of every symbol of the tree is its path (R151). -/
theorem CodesOf.codeOf_mem_paths {s : State} {t : Shape} (h : CodesOf s t) {y : Symbol}
    (hy : BitVec.ofNat 9 y.val ∈ t.syms) : (BitVec.ofNat 9 y.val, s.codeOf y) ∈ t.paths := by
  obtain ⟨p, hp⟩ := Shape.mem_syms.mp hy
  obtain ⟨-, hcode⟩ := h
  obtain ⟨-, -, hcodeOf⟩ := hcode y p hp
  exact hcodeOf ▸ hp

/-! ### `WHDR` -/

/-- Appends a bit string to the sink (R66, R67). -/
def State.appendBits (s : State) (l : List Bool) : State := { s with snkBits := s.snkBits ++ l }

theorem writeBits_eq_appendBits (s : State) (w v : Nat) : s.writeBits w v = s.appendBits (bits w v) := rfl

@[simp] theorem appendBits_append (s : State) (l m : List Bool) :
    (s.appendBits l).appendBits m = s.appendBits (l ++ m) := by
  simp only [State.appendBits, List.append_assoc]

theorem putTree_leaf {s : State} {i : NodeIdx} {n : Node} (d : Nat) (hn : s.node? i = some n) (hleaf : n.leaf = true) :
    putTree (d + 1) i s = .ok ((s.writeBits 1 1).writeBits 9 n.sym.toNat) := by
  simp only [putTree, hn, hleaf, if_true]

theorem putTree_internal {s : State} {i : NodeIdx} {n : Node} (d : Nat) (hn : s.node? i = some n)
    (hleaf : n.leaf = false) :
    putTree (d + 1) i s = (putTree d n.left (s.writeBits 1 0)).andThen (putTree d n.right) := by
  simp only [putTree, hn, hleaf, Bool.false_eq_true, if_false]

/-- The walk of `WHDR` over a stored tree appends its serialisation, when at least as many nested calls are left as
the tree has leaves (R153, R32 (b)). -/
theorem putTree_eq_ser {t : ITree} {s : State} {d : Nat} (hstored : t.storedIn s.nodes = true)
    (hd : t.shape.leaves ≤ d) : putTree d t.top s = .ok (s.appendBits t.shape.ser) := by
  obtain ⟨d, rfl⟩ := Nat.exists_eq_add_of_le' (t.shape.leaves_pos.trans hd)
  induction t generalizing s d with
  | leaf i v =>
    obtain ⟨n, hn, hleaf, rfl⟩ := storedIn_leaf hstored
    rw [ITree.top, putTree_leaf d hn hleaf, writeBits_eq_appendBits, writeBits_eq_appendBits, appendBits_append]
    rfl
  | node i l r hl hr =>
    obtain ⟨⟨n, hn, hleaf, hleft, hright⟩, hstoredL, hstoredR⟩ := storedIn_node hstored
    have hposL := l.shape.leaves_pos
    have hposR := r.shape.leaves_pos
    rw [ITree.shape, Shape.leaves] at hd
    obtain ⟨d, rfl⟩ := Nat.exists_eq_add_of_le' (show 1 ≤ d by omega)
    rw [ITree.top, putTree_internal (d + 1) hn hleaf, hleft, hright, hl (s := s.writeBits 1 0) hstoredL d (by omega),
      andThen_ok, hr (s := (s.writeBits 1 0).appendBits _) hstoredR d (by omega), writeBits_eq_appendBits,
      appendBits_append, appendBits_append]
    rfl

/-- `WHDR` on a valid tree and an open sink appends the header of the tree (R153). -/
theorem exec_whdr_open {s : State} {t : ITree} (hrun : s.run = .idle) (hvalid : s.treeState ≠ .none)
    (hopen : s.snkClosed = false) (htree : HoldsTree s t) (hle : t.shape.leaves ≤ 257) :
    exec .whdr s = .next (s.appendBits t.shape.ser) := by
  obtain ⟨htop, hstored, -⟩ := htree
  have hbody : whdrBody s = .ok (s.appendBits t.shape.ser) := by
    rw [whdrBody, State.hasTree, State.sinkOpen, decide_eq_true hvalid, hopen, Bool.not_false, Bool.and_self,
      require_true, andThen_ok, ← htop]
    exact putTree_eq_ser hstored (show _ ≤ Config.stackDepth from hle.trans (by decide))
  refine (issue_idle hrun).trans ?_
  rw [hbody]
  exact finish_ok hrun

/-! ### `ENCODE` -/

/-- The loop of R192 over the whole bytes left, all of which have a code, appends their codes. -/
theorem encodeLoop_eq {s : State} {left : List Byte} (hleft : s.bytesLeft = left)
    (hhas : ∀ b ∈ left, s.codeHas[dataSymbol b] = true) :
    encodeLoop left.length s =
      .ok { s with snkBits := s.snkBits ++ left.flatMap fun b => s.codeOf (dataSymbol b), srcPos := s.srcEnd } := by
  induction left generalizing s with
  | nil => rw [List.length_nil, encodeLoop, readBits_of_bytesLeft_nil hleft, List.flatMap_nil, List.append_nil]
  | cons b left ih =>
    obtain ⟨hread, hrest⟩ := readBits_of_bytesLeft_cons hleft
    obtain ⟨hb, hhas⟩ := List.forall_mem_cons.mp hhas
    have hnext := ih (s := { s with srcPos := s.srcPos + 8 }.writeCode (dataSymbol b)) hrest hhas
    rw [List.length_cons, encodeLoop, hread]
    simp only [hb, if_true, hnext, List.flatMap_cons, State.writeCode_snkBits, List.append_assoc]
    rfl

/-- `ENCODE` with a code for every byte left appends their codes and the sentinel's (R192). -/
theorem exec_encode_all {s : State} (hrun : s.run = .idle) (hcodes : s.codeValid = true) (hopen : s.snkClosed = false)
    (hhas : ∀ b ∈ s.bytesLeft, s.codeHas[dataSymbol b] = true) :
    exec .encode s =
      .next { s with
        snkBits := s.snkBits ++ (s.bytesLeft.flatMap fun b => s.codeOf (dataSymbol b)) ++ s.codeOf Config.eofSymbol
        srcPos := s.srcEnd
        codeValid := false } := by
  have hbody : encodeBody s = .ok { s with
      snkBits := s.snkBits ++ (s.bytesLeft.flatMap fun b => s.codeOf (dataSymbol b)) ++ s.codeOf Config.eofSymbol
      srcPos := s.srcEnd
      codeValid := false } := by
    simp only [encodeBody, hcodes, State.sinkOpen, hopen, Bool.not_false, Bool.and_self, require_true, andThen_ok,
      ← bytesLeft_length, encodeLoop_eq rfl hhas]
    rfl
  refine (issue_idle hrun).trans ?_
  rw [hbody]
  exact finish_ok hrun

end Sys2Proof.Machine
end

section
/-!
`RHDR` on a complete header (`43_tree_decoder.md` R171): reading the records of a tree returns its top entry to the
call that waits for it, with the tree stored in preorder from the next free entry.
-/

namespace Sys2Proof.Machine

/-! ### One record -/

/-- What `RHDR` does after a record: it ends or reads the next one (R171). -/
def afterRecord (f : Nat) (s : State) : Ended := if s.headerDone then .ok s else headerLoop f s

theorem headerLoop_succ (f : Nat) (s : State) : headerLoop (f + 1) s = (headerTurn s).andThen (afterRecord f) := rfl

/-- After a record that leaves a call pending the header goes on (R171). -/
theorem afterRecord_pending (f : Nat) {s : State} {c : Pending} {l : List Pending} (h : s.stack = c :: l) :
    afterRecord f s = headerLoop f s := by
  rw [afterRecord, State.headerDone, h]
  rfl

theorem afterRecord_done (f : Nat) {s : State} (h : s.stack = []) : afterRecord f s = .ok s := by
  rw [afterRecord, State.headerDone, h]
  rfl

theorem nodeCount_ne_cap {s : State} {k : Fin 513} (h : s.nodeCount = BitVec.ofNat 10 k) :
    s.nodeCount ≠ BitVec.ofNat 10 Config.nodeCap := fun he => by
  have hcap : (BitVec.ofNat 10 k.val).toNat = 513 := congrArg BitVec.toNat (h.symm.trans he)
  rw [nodeIdx_toNat] at hcap
  exact absurd k.isLt (Nat.not_lt.mpr hcap.ge)

theorem ofNat_nodeIdx_succ (k : Nat) : BitVec.ofNat 10 k + 1#10 = BitVec.ofNat 10 (k + 1) := (BitVec.ofNat_add k 1).symm

theorem entry?_ofNat (k : Fin 513) : entry? (BitVec.ofNat 10 k) = some k := entry?_eq_some.mpr (nodeIdx_toNat k)

/-- A "0" next in the source is an internal record: its node is numbered and waits for its children (R171). -/
theorem headerTurn_internal {s : State} {k : Fin 513} {rest : List Bool} (hk : s.nodeCount = BitVec.ofNat 10 k)
    (hsrc : s.srcBits.drop s.srcPos = false :: rest) :
    headerTurn s = .ok { s with
      srcPos := s.srcPos + 1, nodeCount := s.nodeCount + 1#10, stack := ⟨s.nodeCount, none⟩ :: s.stack } := by
  have hread := readBits_field (m := 0#1) Nat.one_pos hsrc
  simp only [headerTurn, fetchRecord, if_neg (nodeCount_ne_cap hk), hread, if_true, decodeRecord, takeRecord,
    takeInternal]
  rfl

/-- A "1" and a symbol next in the source are a leaf record: its node is numbered and returned to the call that waits
for it (R171). -/
theorem headerTurn_leaf {s : State} {k : Fin 513} {v : SymField} {rest : List Bool}
    (hk : s.nodeCount = BitVec.ofNat 10 k) (hv : v.toNat ≤ 256)
    (hsrc : s.srcBits.drop s.srcPos = (Shape.leaf v).ser ++ rest) :
    headerTurn s =
      returnNode s.stack s.nodeCount { s with
        srcPos := s.srcPos + 10, nodeCount := s.nodeCount + 1#10, freeTick := s.freeTick + 1
        nodes := s.nodes.set k ⟨true, v, Config.nil, Config.nil, Config.freeWeight s.freeTick⟩ } := by
  have hread := readBits_field (m := 1#1) Nat.one_pos hsrc
  have hread' := readBits_field (s := { s with srcPos := s.srcPos + 1 }) (m := v) (by decide)
    (drop_srcPos_add (l := [true]) hsrc)
  have hentry : entry? s.nodeCount = some k := hk ▸ entry?_ofNat k
  simp only [headerTurn, fetchRecord, if_neg (nodeCount_ne_cap hk), hread, hread', decodeRecord, takeRecord, takeLeaf,
    if_neg (Nat.not_lt.mpr hv), hentry, show ¬ 1#1 = 0#1 by decide, if_false]
  rfl

/-- `s` between two records of a header: the position, how many nodes are numbered, and what is stored and pending
(R171). -/
def State.headerAt (s : State) (pos k : Nat) (m : Vector Node 513) (tick : Nat) (l : List Pending) : State :=
  { s with srcPos := pos, nodeCount := BitVec.ofNat 10 k, nodes := m, freeTick := tick, stack := l }

section
variable {s : State} {pos tick : Nat} {m : Vector Node 513} {l : List Pending} {k : Fin 513} {rest : List Bool}

theorem headerLoop_internal (f : Nat) (hsrc : s.srcBits.drop pos = false :: rest) :
    headerLoop (f + 1) (s.headerAt pos k m tick l) =
      headerLoop f (s.headerAt (pos + 1) (k + 1) m tick (⟨BitVec.ofNat 10 k, none⟩ :: l)) := by
  rw [headerLoop_succ, headerTurn_internal (k := k) rfl hsrc, andThen_ok, afterRecord_pending f rfl]
  simp only [State.headerAt, ofNat_nodeIdx_succ]

theorem headerLoop_leaf {v : SymField} (f : Nat) (hv : v.toNat ≤ 256)
    (hsrc : s.srcBits.drop pos = (Shape.leaf v).ser ++ rest) :
    headerLoop (f + 1) (s.headerAt pos k m tick l) =
      (returnNode l (BitVec.ofNat 10 k) (s.headerAt (pos + 10) (k + 1)
        (m.set k ⟨true, v, Config.nil, Config.nil, Config.freeWeight tick⟩) (tick + 1) l)).andThen (afterRecord f) := by
  rw [headerLoop_succ, headerTurn_leaf (k := k) rfl hv hsrc]
  simp only [State.headerAt, ofNat_nodeIdx_succ]

/-- A first child returned is the left one, and the header goes on (R171). -/
theorem returnNode_left (f : Nat) (j i : NodeIdx) (s : State) :
    (returnNode (⟨j, none⟩ :: l) i s).andThen (afterRecord f) = headerLoop f { s with stack := ⟨j, some i⟩ :: l } := by
  rw [returnNode, andThen_ok, afterRecord_pending f rfl]

/-- A second child returned completes its parent's entry, and the parent is returned (R171). -/
theorem returnNode_right (i i' : NodeIdx) (s : State) :
    returnNode (⟨BitVec.ofNat 10 k, some i⟩ :: l) i' s =
      returnNode l (BitVec.ofNat 10 k)
        (s.setNode k ⟨false, Config.freeSym s.freeTick, i, i', Config.freeWeight s.freeTick⟩).tick := by
  rw [returnNode, entry?_ofNat]

end

/-! ### A whole tree -/

theorem Shape.records_length_pos (t : Shape) : 1 ≤ t.records.length := by
  cases t with
  | leaf v => exact Nat.le_refl 1
  | node l r => exact Nat.le_add_left 1 _

/-- Reading the header of `t` has turned node memory `m` into `m'`, which holds the tree `it` of this shape in
preorder from entry `k` on and the entries of `m` before it (R171, R34 (f)). -/
structure ReadFrom (m m' : Vector Node 513) (k : Nat) (t : Shape) (it : ITree) : Prop where
  shape : it.shape = t
  top : it.top = BitVec.ofNat 10 k
  stored : it.storedIn m' = true
  indices : it.indices = List.range' k t.records.length
  below : ∀ j < k, m'[j]? = m[j]?

theorem readFrom_leaf (m : Vector Node 513) (k : Fin 513) (v : SymField) (w : Nat) :
    ReadFrom m (m.set k ⟨true, v, Config.nil, Config.nil, w⟩) k (.leaf v) (.leaf (BitVec.ofNat 10 k.val) v) where
  shape := rfl
  top := rfl
  stored := by
    refine storedIn_leaf_of_entry (w := w) ?_
    rw [nodeIdx_toNat]
    exact Vector.getElem?_set_self k.isLt
  indices := by
    rw [ITree.indices, nodeIdx_toNat]
    rfl
  below _ hj := Vector.getElem?_set_ne _ (Nat.ne_of_gt hj)

/-- Two subtrees read one after the other, and the entry of their parent, which was numbered before them. -/
theorem ReadFrom.node {m m₁ m₂ : Vector Node 513} {k : Fin 513} {l r : Shape} {il ir : ITree}
    (hl : ReadFrom m m₁ (k + 1) l il) (hr : ReadFrom m₁ m₂ (k + 1 + l.records.length) r ir) (y : SymField) (w : Nat) :
    ReadFrom m (m₂.set k ⟨false, y, il.top, ir.top, w⟩) k (.node l r) (.node (BitVec.ofNat 10 k.val) il ir) where
  shape := by rw [ITree.shape, hl.shape, hr.shape]
  top := rfl
  stored := by
    refine storedIn_node_of_entry (y := y) (w := w) ?_ ?_ ?_
    · rw [nodeIdx_toNat]
      exact Vector.getElem?_set_self k.isLt
    · rw [storedIn_set, storedIn_congr, hl.stored]
      · intro j hj
        rw [hl.indices, List.mem_range'_1] at hj
        exact hr.below j hj.2
      · rw [hl.indices, List.mem_range'_1]
        omega
    · rw [storedIn_set, hr.stored]
      rw [hr.indices, List.mem_range'_1]
      omega
  indices := by
    rw [ITree.indices, nodeIdx_toNat, hl.indices, hr.indices, List.range'_append_1, Shape.records, List.length_cons,
      List.length_append, List.range'_succ]
  below j hj := by
    rw [Vector.getElem?_set_ne _ (Nat.ne_of_gt hj), hr.below j (by omega), hl.below j (by omega)]

/-- Reading the records of a tree, when there is room for its nodes, stores it from the next free entry `k` on and
returns this entry to the innermost call that waits (R171, R173). -/
theorem headerLoop_ser {t : Shape} {s : State} {pos k tick : Nat} {m : Vector Node 513} {l : List Pending}
    {rest : List Bool} (f : Nat) (hroom : k + t.records.length ≤ 513) (hok : t.symbolsOk)
    (hsrc : s.srcBits.drop pos = t.ser ++ rest) :
    ∃ m' tick' l' it,
      headerLoop (f + t.records.length) (s.headerAt pos k m tick l) =
          (returnNode l (BitVec.ofNat 10 k)
            (s.headerAt (pos + t.ser.length) (k + t.records.length) m' tick' l')).andThen (afterRecord f) ∧
        ReadFrom m m' k t it := by
  have hk : k < 513 := by
    have := t.records_length_pos
    omega
  induction t generalizing pos k tick m l f rest with
  | leaf v =>
    lift k to Fin 513 using hk
    refine ⟨_, tick + 1, l, _, ?_, readFrom_leaf m k v (Config.freeWeight tick)⟩
    rw [Shape.records, List.length_singleton, headerLoop_leaf f (hok v (List.mem_singleton_self v)) hsrc,
      Shape.ser, List.length_cons, bits_length]
  | node tl tr ihl ihr =>
    lift k to Fin 513 using hk
    have hposL := tl.records_length_pos
    have hposR := tr.records_length_pos
    obtain ⟨hokL, hokR⟩ := List.forall_mem_append.mp hok
    simp only [Shape.records, List.length_cons, List.length_append] at hroom ⊢
    rw [Shape.ser, List.cons_append, List.append_assoc] at hsrc
    have hsrcL : s.srcBits.drop (pos + 1) = _ := drop_srcPos_add (s := { s with srcPos := pos }) (l := [false]) hsrc
    have hsrcR : s.srcBits.drop (pos + 1 + tl.ser.length) = _ :=
      drop_srcPos_add (s := { s with srcPos := pos + 1 }) hsrcL
    obtain ⟨m₁, tick₁, l₁, il, hleft, hreadL⟩ := ihl (m := m) (tick := tick)
      (l := ⟨BitVec.ofNat 10 k, none⟩ :: l) (f + tr.records.length) (show k + 1 + tl.records.length ≤ 513 by omega) hokL
      hsrcL (by omega)
    obtain ⟨m₂, tick₂, l₂, ir, hright, hreadR⟩ := ihr (m := m₁) (tick := tick₁)
      (l := ⟨BitVec.ofNat 10 k, some il.top⟩ :: l) f
      (show k + 1 + tl.records.length + tr.records.length ≤ 513 by omega) hokR hsrcR (by omega)
    refine ⟨_, tick₂ + 1, l₂, _, ?_, hreadL.node hreadR (Config.freeSym tick₂) (Config.freeWeight tick₂)⟩
    rw [← Nat.add_assoc f, headerLoop_internal _ hsrc, Nat.add_comm tl.records.length, ← Nat.add_assoc f, hleft,
      ← hreadL.top, returnNode_left]
    refine Eq.trans hright ?_
    rw [returnNode_right, ← hreadR.top, Shape.ser, List.length_cons, List.length_append,
      show pos + 1 + tl.ser.length + tr.ser.length = pos + (tl.ser.length + tr.ser.length + 1) by omega,
      show k.val + 1 + tl.records.length + tr.records.length = k + (tr.records.length + tl.records.length + 1) by omega]
    rfl

/-- A tree read from entry 0 on, with as many entries in use as it has nodes, is the tree in node memory (R34). -/
theorem ReadFrom.holdsTree {m : Vector Node 513} {t : Shape} {it : ITree} {u : State} (h : ReadFrom m u.nodes 0 t it)
    (hroot : u.root = 0#10) (hcount : u.nodeCount.toNat = t.records.length) (hok : t.symbolsOk) : HoldsTree u it := by
  have hmem : ∀ j, j ∈ it.indices ↔ j < u.nodeCount.toNat := fun j => by
    rw [h.indices, List.mem_range'_1, hcount]
    omega
  exact ⟨h.top.trans hroot.symm, h.stored, h.indices ▸ List.nodup_range', fun j => (hmem j).mp, fun j => (hmem j).mpr,
    h.shape.symm ▸ hok⟩

/-- `RHDR` on the header of a tree that node memory can hold reads its bits and leaves the tree there (R171). -/
theorem exec_rhdr_ser {s : State} {t : Shape} {rest : List Bool} (hrun : s.run = .idle) (hle : t.leaves ≤ 257)
    (hok : t.symbolsOk) (hsrc : s.srcBits.drop s.srcPos = t.ser ++ rest) :
    ∃ nodes count tick it,
      exec .rhdr s = .next { s with
        srcPos := s.srcPos + t.ser.length, nodeCount := count, nodes := nodes, freeTick := tick, stack := []
        root := 0#10, treeState := .parsed, codeValid := false } ∧
      it.shape = t ∧ HoldsTree { s with nodeCount := count, nodes := nodes, root := 0#10 } it := by
  have hrecords := t.records_length
  obtain ⟨m, tick, l, it, hloop, hread⟩ := headerLoop_ser (s := s.dropTree) (k := 0) (tick := s.freeTick) (m := s.nodes)
    (l := []) (513 - t.records.length) (by omega) hok hsrc
  refine ⟨m, BitVec.ofNat 10 t.records.length, tick, it, (issue_idle hrun).trans ?_, hread.shape,
    ReadFrom.holdsTree (m := s.nodes) hread rfl ?_ hok⟩
  · rw [Nat.sub_add_cancel (by omega), Nat.zero_add, returnNode, andThen_ok, afterRecord_done _ rfl] at hloop
    have hbody : rhdrBody s = _ := hloop
    rw [hbody]
    exact finish_ok hrun
  · rw [BitVec.toNat_ofNat, Nat.mod_eq_of_lt (by omega)]

end Sys2Proof.Machine
end

section
/-!
`DECODE` on codes of data bytes and the sentinel's code (`45_bitstream_decoder.md` R210 to R212): the bits of a path
lead the cursor from the root to the leaf of the path.
-/

namespace Sys2Proof.Machine

/-! ### One code -/

/-- What the loop of R210 does at a leaf with the symbol field `v`, with `k` bits left. -/
def decodeLeaf (k : Nat) (v : SymField) (s : State) : Ended :=
  if v = Config.pseudoEof then .ok s else decodeLoop k { s.writeBits 8 (dataByte v).toNat with cur := s.root }

/-- What the loop of R210 does when a bit has led to node `i`, with `k` bits left. -/
def decodeAt (k : Nat) (i : NodeIdx) (s : State) : Ended :=
  match s.node? i with
  | none => .fault .noSuchNode
  | some c => if c.leaf then decodeLeaf k c.sym { s with cur := i } else decodeLoop k { s with cur := i }

theorem decodeAt_leaf {k : Nat} {i : NodeIdx} {s : State} {n : Node} (hn : s.node? i = some n) (hleaf : n.leaf = true) :
    decodeAt k i s = decodeLeaf k n.sym { s with cur := i } := by
  rw [decodeAt, hn]
  exact if_pos hleaf

theorem decodeAt_internal {k : Nat} {i : NodeIdx} {s : State} {n : Node} (hn : s.node? i = some n)
    (hleaf : n.leaf = false) : decodeAt k i s = decodeLoop k { s with cur := i } := by
  rw [decodeAt, hn]
  exact if_neg (by rw [hleaf]; decide)

/-- One turn of the loop of R210: the next bit leads from the cursor to one of its children. -/
theorem decodeLoop_turn {k : Nat} {s : State} {n : Node} {b : BitVec 1} {rest : List Bool} (hn : s.node? s.cur = some n)
    (hsrc : s.srcBits.drop s.srcPos = bits 1 b.toNat ++ rest) :
    decodeLoop (k + 1) s = decodeAt k (n.child b) { s with srcPos := s.srcPos + 1 } := by
  have hread := readBits_field Nat.one_pos hsrc
  have hn' : { s with srcPos := s.srcPos + 1 }.node? s.cur = some n := hn
  rw [decodeLoop, hread]
  simp only [hn']
  rfl

/-- From an internal node the next bit leads to one of its children (R210). -/
theorem decodeAt_turn {k : Nat} {i : NodeIdx} {s : State} {n : Node} (b : BitVec 1) {rest : List Bool}
    (hn : s.node? i = some n) (hleaf : n.leaf = false) (hsrc : s.srcBits.drop s.srcPos = bits 1 b.toNat ++ rest) :
    decodeAt (k + 1) i s = decodeAt k (n.child b) { s with cur := i, srcPos := s.srcPos + 1 } := by
  rw [decodeAt_internal hn hleaf]
  exact decodeLoop_turn (s := { s with cur := i }) hn hsrc

/-- A bit and the path that follows it from the child it leads to (R210). -/
theorem decodeAt_cons {k : Nat} {i : NodeIdx} {s : State} {n : Node} {c : ITree} {v : SymField} {q : List Bool}
    (b : BitVec 1) {rest : List Bool} (hn : s.node? i = some n) (hleaf : n.leaf = false) (hchild : n.child b = c.top)
    (hsrc : s.srcBits.drop s.srcPos = bits 1 b.toNat ++ rest)
    (hpath : ∃ cur, decodeAt (q.length + k) c.top { s with cur := i, srcPos := s.srcPos + 1 } =
      decodeLeaf k v { s with srcPos := s.srcPos + 1 + q.length, cur := cur }) :
    ∃ cur, decodeAt (q.length + 1 + k) i s =
      decodeLeaf k v { s with srcPos := s.srcPos + (q.length + 1), cur := cur } := by
  obtain ⟨cur, hcur⟩ := hpath
  exact ⟨cur, by rw [Nat.add_right_comm, decodeAt_turn b hn hleaf hsrc, hchild, hcur, Nat.add_assoc, Nat.add_comm 1]⟩

/-- The bits of a path lead from the top of a stored tree to the leaf of the path (R212). -/
theorem decodeAt_path {t : ITree} {s : State} {v : SymField} {p rest : List Bool} (k : Nat)
    (hstored : t.storedIn s.nodes = true) (hp : (v, p) ∈ t.shape.paths) (hsrc : s.srcBits.drop s.srcPos = p ++ rest) :
    ∃ cur, decodeAt (p.length + k) t.top s = decodeLeaf k v { s with srcPos := s.srcPos + p.length, cur := cur } := by
  induction t generalizing s p with
  | leaf i x =>
    obtain ⟨rfl, rfl⟩ := Prod.mk.inj (List.mem_singleton.mp hp)
    obtain ⟨n, hn, hleaf, rfl⟩ := storedIn_leaf hstored
    rw [ITree.top, decodeAt_leaf hn hleaf, List.length_nil, Nat.zero_add]
    exact ⟨i, rfl⟩
  | node i l r hl hr =>
    obtain ⟨⟨n, hn, hleaf, hleft, hright⟩, hstoredL, hstoredR⟩ := storedIn_node hstored
    rcases Shape.mem_paths_node.mp hp with ⟨q, hq, rfl⟩ | ⟨q, hq, rfl⟩
    · exact decodeAt_cons 0#1 hn hleaf hleft hsrc
        (hl (s := { s with cur := i, srcPos := s.srcPos + 1 }) hstoredL hq (drop_srcPos_add (l := [false]) hsrc))
    · exact decodeAt_cons 1#1 hn hleaf hright hsrc
        (hr (s := { s with cur := i, srcPos := s.srcPos + 1 }) hstoredR hq (drop_srcPos_add (l := [true]) hsrc))

/-! ### A payload -/

/-- The symbol field of a data byte (R8, R96). -/
def dataField (b : Byte) : SymField := BitVec.ofNat 9 (dataSymbol b).val

theorem dataByte_dataField (b : Byte) : dataByte (dataField b) = b := by
  refine BitVec.eq_of_toNat_eq ?_
  have := b.isLt
  rw [dataByte, BitVec.extractLsb'_toNat, dataField, ofNat_symbol_toNat, Nat.shiftRight_zero, dataSymbol,
    Nat.mod_eq_of_lt this]

theorem dataField_ne_pseudoEof (b : Byte) : dataField b ≠ Config.pseudoEof := by
  simp only [dataField, dataSymbol]
  bv_omega

/-- The code of a data byte at the root of a tree with more than one leaf writes the byte and leads back to the root
(R210). -/
theorem decodeAt_byte {t : ITree} {s : State} {b : Byte} {p rest : List Bool} {n : Node} (k : Nat)
    (htop : t.top = s.root) (hroot : s.node? s.root = some n) (hinner : n.leaf = false)
    (hstored : t.storedIn s.nodes = true) (hp : (dataField b, p) ∈ t.shape.paths)
    (hsrc : s.srcBits.drop s.srcPos = p ++ rest) :
    decodeAt (p.length + k) s.root s =
      decodeAt k s.root { s.appendBits (byteBits b) with srcPos := s.srcPos + p.length } := by
  obtain ⟨cur, hcur⟩ := decodeAt_path k hstored hp hsrc
  rw [← htop, hcur, htop, decodeLeaf, if_neg (dataField_ne_pseudoEof b), dataByte_dataField]
  exact (decodeAt_internal (s := { s.appendBits (byteBits b) with srcPos := s.srcPos + p.length }) hroot hinner).symm

/-- The codes of data bytes, and then the sentinel's, at the root of a tree with more than one leaf (R210, R212). -/
theorem decodeAt_bytes {t : ITree} {s : State} {code : Byte → List Bool} {e : List Bool} {input : List Byte} {n : Node}
    {rest : List Bool} (k : Nat) (htop : t.top = s.root) (hroot : s.node? s.root = some n) (hinner : n.leaf = false)
    (hstored : t.storedIn s.nodes = true) (hcodes : ∀ b ∈ input, (dataField b, code b) ∈ t.shape.paths)
    (he : (Config.pseudoEof, e) ∈ t.shape.paths)
    (hsrc : s.srcBits.drop s.srcPos = input.flatMap code ++ (e ++ rest)) :
    ∃ pos cur, decodeAt ((input.flatMap code).length + (e.length + k)) s.root s =
      .ok { s.appendBits (input.flatMap byteBits) with srcPos := pos, cur := cur } := by
  induction input generalizing s with
  | nil =>
    obtain ⟨cur, hcur⟩ := decodeAt_path k hstored he hsrc
    refine ⟨s.srcPos + e.length, cur, ?_⟩
    rw [List.flatMap_nil, List.length_nil, Nat.zero_add, ← htop, hcur, decodeLeaf, if_pos rfl, List.flatMap_nil,
      State.appendBits, List.append_nil]
  | cons b input ih =>
    obtain ⟨hb, hcodes⟩ := List.forall_mem_cons.mp hcodes
    rw [List.flatMap_cons, List.append_assoc] at hsrc
    obtain ⟨pos, cur, hrest⟩ := ih (s := { s.appendBits (byteBits b) with srcPos := s.srcPos + (code b).length }) htop
      hroot hstored hcodes (drop_srcPos_add hsrc)
    refine ⟨pos, cur, ?_⟩
    rw [List.flatMap_cons, List.length_append, Nat.add_assoc, decodeAt_byte _ htop hroot hinner hstored hb hsrc]
    refine hrest.trans ?_
    simp only [State.appendBits, List.flatMap_cons, List.append_assoc]

/-- Past its precondition, `DECODE` at a root that is no leaf is at the root with the rest of the source to read
(R210). -/
theorem decodeBody_of_root_internal {s : State} {n : Node} (htree : s.treeState ≠ .none) (hopen : s.snkClosed = false)
    (hroot : s.node? s.root = some n) (hinner : n.leaf = false) : decodeBody s = decodeAt s.srcLeft s.root s := by
  rw [decodeBody, State.hasTree, State.sinkOpen, decide_eq_true htree, hopen, Bool.not_false, Bool.and_self,
    require_true, andThen_ok, decodeAt_internal hroot hinner]
  simp only [hroot, hinner, Bool.false_eq_true, if_false]

/-- `DECODE` on codes of data bytes and the sentinel's code, in a tree of any size, writes the bytes (R210 to R212). -/
theorem exec_decode_bytes {t : ITree} {s : State} {code : Byte → List Bool} {e : List Bool} {input : List Byte}
    {rest : List Bool} (hrun : s.run = .idle) (htree : s.treeState ≠ .none) (hopen : s.snkClosed = false)
    (hholds : HoldsTree s t) (hcodes : ∀ b ∈ input, (dataField b, code b) ∈ t.shape.paths)
    (he : (Config.pseudoEof, e) ∈ t.shape.paths)
    (hsrc : s.srcBits.drop s.srcPos = input.flatMap code ++ (e ++ rest)) :
    ∃ pos cur, exec .decode s = .next { s.appendBits (input.flatMap byteBits) with srcPos := pos, cur := cur } := by
  cases t with
  | leaf i v =>
    have heof : Config.pseudoEof = v := congrArg Prod.fst (List.mem_singleton.mp he)
    have hnil : input = [] := List.eq_nil_iff_forall_not_mem.mpr fun b hb =>
      dataField_ne_pseudoEof b (heof ▸ congrArg Prod.fst (List.mem_singleton.mp (hcodes b hb)))
    refine ⟨s.srcPos, s.cur, (decodeSingleLeaf s i v hrun htree hopen hholds).trans ?_⟩
    rw [if_pos heof.symm, hnil, List.flatMap_nil, State.appendBits, List.append_nil]
  | node i l r =>
    obtain ⟨htop, hstored, -⟩ := hholds
    obtain ⟨⟨n, hn, hinner, -⟩, -⟩ := storedIn_node hstored
    have hroot : s.node? s.root = some n := htop ▸ hn
    have hleft : s.srcLeft = (input.flatMap code).length + (e.length + rest.length) := by
      have hlen := congrArg List.length hsrc
      rwa [List.length_drop, srcBits_length, List.length_append, List.length_append] at hlen
    obtain ⟨pos, cur, hend⟩ := decodeAt_bytes rest.length htop hroot hinner hstored hcodes he hsrc
    rw [← hleft, ← decodeBody_of_root_internal htree hopen hroot hinner] at hend
    refine ⟨pos, cur, (issue_idle hrun).trans ?_⟩
    rw [hend]
    exact finish_ok hrun

end Sys2Proof.Machine
end

section
/-!
The round trip (`46_top_level.md` R230, R231, R234): what `COMPRESS` writes is the magic number, the header of a tree
with every symbol of the input, their codes in this tree and the sentinel's, and from such a stream `DECOMPRESS` gives
the input back.
-/

namespace Sys2Proof.Machine

/-! ### Compressed streams -/

/-- `l` is the magic number, the header of a tree that node memory can hold, the codes of the bytes of `input` in this
tree, and the sentinel's code (R90, R233). -/
def CompressedStream (magic : BitVec 32) (input : List Byte) (l : List Bool) : Prop :=
  ∃ (t : Shape) (code : Byte → List Bool) (e : List Bool),
    t.symbolsOk ∧ t.leaves ≤ 257 ∧ (∀ b ∈ input, (dataField b, code b) ∈ t.paths) ∧ (Config.pseudoEof, e) ∈ t.paths ∧
      l = bits 32 magic.toNat ++ t.ser ++ input.flatMap code ++ e

/-! ### Sequences of commands -/

theorem runSeq_cons {i : Instr} {l : List Instr} {s u : State} (hexec : exec i s = .next u) (hidle : u.run = .idle) :
    runSeq (i :: l) s = runSeq l u := by
  rw [runSeq, hexec]
  exact if_pos hidle

/-- Both commands end with `CLOSE` on an open sink (R230, R231). -/
theorem runSeq_close {s : State} (hrun : s.run = .idle) (hopen : s.snkClosed = false) :
    runSeq [.close] s = .next s.closeSink :=
  runSeq_cons (exec_close_open hrun hopen) hrun

/-! ### `COMPRESS` -/

/-- The state `u` in which the first three steps of `COMPRESS` leave the state `s`: a built tree `t`, in which every
byte of the source and the sentinel have a leaf, and its codes (R230). -/
structure Coded (s u : State) (t : ITree) : Prop where
  idle : u.run = .idle
  magic : u.cfg.magic = s.cfg.magic
  source : u.src = s.src
  sink : u.snkBits = s.snkBits
  closed : u.snkClosed = s.snkClosed
  built : u.treeState = .built
  valid : u.codeValid = true
  tree : HoldsTree u t
  codes : CodesOf u t.shape
  size : t.shape.leaves ≤ 257
  data : ∀ b ∈ s.src, dataField b ∈ t.shape.syms
  sentinel : Config.pseudoEof ∈ t.shape.syms

/-- Every byte counted and the sentinel are present (R122). -/
theorem mem_presentFields_countsOf {l : List Byte} {v : SymField} :
    v ∈ presentFields (countsOf l) (List.finRange 257) ↔ v = Config.pseudoEof ∨ ∃ b ∈ l, v = dataField b := by
  rw [mem_presentFields]
  constructor
  · rintro ⟨y, hy, rfl⟩
    obtain rfl | ⟨b, rfl⟩ := symbol_cases y
    · exact .inl rfl
    · rw [countsOf_dataSymbol] at hy
      exact .inr ⟨b, List.count_pos_iff.mp hy, rfl⟩
  · rintro (rfl | ⟨b, hb, rfl⟩)
    · exact ⟨Config.eofSymbol, by rw [countsOf_eofSymbol]; exact Nat.one_pos, rfl⟩
    · exact ⟨dataSymbol b, by rw [countsOf_dataSymbol]; exact List.count_pos_iff.mpr hb, rfl⟩

/-- The first three steps of `COMPRESS` from the start of the source (R230). -/
theorem runSeq_fcount_tbuild_cgen {s : State} (l : List Instr) (hrun : s.run = .idle) (hpos : s.srcPos = 0)
    (hpq : s.inPq = 0#513) (hlen : s.src.length ≤ s.cfg.maxLen) :
    ∃ u t, runSeq (.fcount :: .tbuild :: .cgen :: l) s = runSeq l u ∧ Coded s u t := by
  have hcount := exec_fcount hrun hlen
  rw [bytesLeft_of_srcPos_zero hpos] at hcount
  rw [runSeq_cons hcount hrun]
  obtain ⟨nodes, root, count, tick, t, hbuild, htree, hsyms⟩ := exec_tbuild (s := { s with
      freq := countsOf s.src, freqValid := true, treeState := .none, codeValid := false, srcPos := s.srcEnd })
    hrun rfl hpq (y := Config.eofSymbol) (by rw [countsOf_eofSymbol]; exact Nat.one_pos)
  have hnodup : t.shape.syms.Nodup := hsyms.nodup_iff.mpr (presentFields_nodup _)
  rw [runSeq_cons hbuild hrun]
  obtain ⟨has, len, value, tick', hcgen, hcodes⟩ := exec_cgen_codesOf (s := { s with
      freq := countsOf s.src, freqValid := false, treeState := .built, codeValid := false, srcPos := s.srcEnd
      nodes := nodes, root := root, nodeCount := count, freeTick := tick }) hrun rfl htree hnodup
  rw [runSeq_cons hcgen hrun]
  refine ⟨_, t, rfl, hrun, rfl, rfl, rfl, rfl, rfl, rfl, htree, hcodes,
    Shape.leaves_le (symbolsOk_of_holdsTree htree) hnodup, fun b hb => ?_, ?_⟩
  · exact hsyms.mem_iff.mpr (mem_presentFields_countsOf.mpr (.inr ⟨b, hb, rfl⟩))
  · exact hsyms.mem_iff.mpr (mem_presentFields_countsOf.mpr (.inl rfl))

/-- `u` with the magic number and the header of `t` written, and the source at its start (R230). -/
def State.withHeader (u : State) (t : Shape) : State :=
  ((u.writeBits 32 u.cfg.magic.toNat).appendBits t.ser).rewindToStart

/-- The steps of `COMPRESS` that write what stands before the codes (R230). -/
theorem runSeq_wmagic_whdr_rewind {s u : State} {t : ITree} (l : List Instr) (h : Coded s u t)
    (hopen : s.snkClosed = false) :
    runSeq (.wmagic :: .whdr :: .rewind :: l) u = runSeq l (u.withHeader t.shape) := by
  have hopen' : u.snkClosed = false := h.closed.trans hopen
  have hvalid : u.treeState ≠ .none := h.built ▸ TreeState.noConfusion
  have hwhdr := exec_whdr_open (s := u.writeBits 32 u.cfg.magic.toNat) h.idle hvalid hopen' h.tree h.size
  have hrewind := exec_rewind (s := (u.writeBits 32 u.cfg.magic.toNat).appendBits t.shape.ser) h.idle
  rw [runSeq_cons (exec_wmagic_open h.idle hopen') h.idle, runSeq_cons hwhdr h.idle, runSeq_cons hrewind h.idle,
    State.withHeader]

/-- The last two steps of `COMPRESS` end the stream of the source and close it (R230, R233). -/
theorem runSeq_encode_close {s u : State} {t : ITree} (h : Coded s u t) (hopen : s.snkClosed = false)
    (hempty : s.snkBits = []) :
    ∃ v l, runSeq [.encode, .close] (u.withHeader t.shape) = .next v ∧ v.run = .idle ∧
      CompressedStream s.cfg.magic s.src l ∧ v.snkBytes = some (packBytes (l ++ padding l.length)) := by
  have hopen' : u.snkClosed = false := h.closed.trans hopen
  have hleft : (u.withHeader t.shape).bytesLeft = s.src := (bytesLeft_of_srcPos_zero rfl).trans h.source
  have hencode := exec_encode_all (s := u.withHeader t.shape) h.idle h.valid hopen' fun b hb =>
    h.codes.codeHas_of_mem (h.data b (hleft ▸ hb))
  rw [hleft] at hencode
  refine ⟨_, _, (runSeq_cons hencode h.idle).trans (runSeq_close h.idle hopen'), h.idle,
    ⟨t.shape, fun b => u.codeOf (dataSymbol b), u.codeOf Config.eofSymbol, symbolsOk_of_holdsTree h.tree, h.size,
      fun b hb => h.codes.codeOf_mem_paths (h.data b hb),
      h.codes.codeOf_mem_paths (y := Config.eofSymbol) h.sentinel, rfl⟩, ?_⟩
  have hbits : (u.withHeader t.shape).snkBits = bits 32 s.cfg.magic.toNat ++ t.shape.ser := by
    rw [← h.magic, ← List.nil_append (bits _ _), ← hempty, ← h.sink]
    rfl
  rw [State.closeSink_snkBytes]
  dsimp only
  rw [hbits]
  rfl

/-- `COMPRESS` on an open empty sink, from the start of the source, ends with a stream of the source, padded to whole
bytes, in its sink (R230, R233). -/
theorem exec_compress_stream {s : State} (hrun : s.run = .idle) (hpos : s.srcPos = 0) (hopen : s.snkClosed = false)
    (hempty : s.snkBits = []) (hpq : s.inPq = 0#513) (hlen : s.src.length ≤ s.cfg.maxLen) :
    ∃ u l, exec .compress s = .next u ∧ CompressedStream s.cfg.magic s.src l ∧
      u.snkBytes = some (packBytes (l ++ padding l.length)) := by
  obtain ⟨hsteps, -⟩ := macroCommandsAreTheirSteps s hrun
  obtain ⟨u, t, hcode, hcoded⟩ :=
    runSeq_fcount_tbuild_cgen [.wmagic, .whdr, .rewind, .encode, .close] hrun hpos hpq hlen
  obtain ⟨v, l, hend, hidle, hstream, hbytes⟩ := runSeq_encode_close hcoded hopen hempty
  rw [hcode, runSeq_wmagic_whdr_rewind _ hcoded hopen, hend] at hsteps
  exact ⟨_, l, hsteps.trans (if_pos hidle), hstream, hbytes⟩

/-! ### `DECOMPRESS` -/

/-- Whole bytes need no padding (R68). -/
theorem packBytes_padded_bytes (l : List Byte) :
    packBytes (l.flatMap byteBits ++ padding (l.flatMap byteBits).length) = l := by
  rw [packBytes_flatMap_append, packBytes_short, List.append_nil]
  rw [padding_length, flatMap_byteBits_length]
  omega

/-- `DECOMPRESS` on an open empty sink, at a stream of `input`, ends in `IDLE` with `input` as the bytes of its sink,
whatever follows the stream (R97, R231). -/
theorem exec_decompress_stream {s : State} {input : List Byte} {l rest : List Bool} (hrun : s.run = .idle)
    (hopen : s.snkClosed = false) (hempty : s.snkBits = []) (hstream : CompressedStream s.cfg.magic input l)
    (hsrc : s.srcBits.drop s.srcPos = l ++ rest) :
    ∃ u, exec .decompress s = .next u ∧ u.run = .idle ∧ u.snkBytes = some input := by
  obtain ⟨-, hsteps⟩ := macroCommandsAreTheirSteps s hrun
  obtain ⟨t, code, e, hok, hsize, hcodes, he, rfl⟩ := hstream
  simp only [List.append_assoc] at hsrc
  have hmagic := exec_rmagic_field hrun hsrc
  rw [if_pos rfl] at hmagic
  have hsrc₁ := drop_srcPos_add hsrc
  rw [bits_length] at hsrc₁
  obtain ⟨nodes, count, tick, it, hheader, rfl, htree⟩ :=
    exec_rhdr_ser (s := { s with srcPos := s.srcPos + 32 }) hrun hsize hok hsrc₁
  have hsrc₂ := drop_srcPos_add (s := { s with srcPos := s.srcPos + 32 }) hsrc₁
  obtain ⟨pos, cur, hdecode⟩ := exec_decode_bytes (s := { s with
    srcPos := s.srcPos + 32 + it.shape.ser.length, nodeCount := count, nodes := nodes, freeTick := tick, stack := []
    root := 0#10, treeState := .parsed, codeValid := false })
    hrun TreeState.noConfusion hopen htree hcodes he hsrc₂
  have hrunSeq : runSeq [.rmagic, .rhdr, .decode, .close] s = .next _ :=
    (runSeq_cons hmagic hrun).trans
      ((runSeq_cons hheader hrun).trans ((runSeq_cons hdecode hrun).trans (runSeq_close hrun hopen)))
  rw [hrunSeq] at hsteps
  refine ⟨_, hsteps.trans (if_pos hrun), hrun, ?_⟩
  simp only [State.closeSink_snkBytes, State.appendBits, hempty, List.nil_append, packBytes_padded_bytes]

/-- Settles O46: `COMPRESS` leaves a stream of the input in whole bytes, and `DECOMPRESS` reads it back. -/
theorem roundTrip : Obligations.RoundTrip := by
  intro cfg input hlen
  obtain ⟨u, l, hcompress, hstream, hbytes⟩ := exec_compress_stream (s := launch cfg input []) rfl rfl rfl rfl rfl hlen
  obtain ⟨v, hdecompress, hidle, hinput⟩ := exec_decompress_stream (rest := padding l.length)
    (s := launch cfg (packBytes (l ++ padding l.length)) []) rfl rfl rfl hstream (flatMap_packBytes_padded l)
  exact ⟨u, v, _, hcompress, hbytes, hdecompress, hidle, hinput⟩

end Sys2Proof.Machine
end

section
/-!
The preconditions of R256 (`60_exceptions.md`): the test is the first line of the command, so a test that fails raises at the
state the command found.
-/

namespace Sys2Proof.Machine

/-- A command whose first line is a test that fails takes the error entry at the unchanged state (R256, R257). -/
theorem issue_of_require_false {body k : State → Ended} {p : Bool} {why : Reason} {s : State} (hrun : s.run = .idle)
    (hbody : body s = (require p why s).andThen k) (hp : p = false) : issue body s = .next (errorEntry why s) := by
  rw [issue_idle hrun, hbody, hp, require_false, andThen_raised, finish_raised]

theorem and_sinkOpen_eq_false {p : Bool} {s : State} (h : p = false ∨ s.snkClosed = true) : (p && s.sinkOpen) = false := by
  rcases h with hp | hclosed
  · rw [hp, Bool.false_and]
  · rw [State.sinkOpen, hclosed, Bool.not_true, Bool.and_false]

theorem hasTree_eq_false {s : State} (h : s.treeState = .none) : s.hasTree = false := decide_eq_false (not_not_intro h)

/-- Settles O16: the test of each of these commands is its first line. -/
theorem preconditionFailuresRaise : Obligations.PreconditionFailuresRaise := fun _ hrun =>
  ⟨issue_of_require_false hrun rfl, fun hbuilt => issue_of_require_false hrun rfl (decide_eq_false hbuilt),
    fun h => issue_of_require_false hrun rfl (and_sinkOpen_eq_false (h.imp_left hasTree_eq_false)),
    fun h => issue_of_require_false hrun rfl (and_sinkOpen_eq_false (h.imp_left hasTree_eq_false)),
    fun h => issue_of_require_false hrun rfl (and_sinkOpen_eq_false h),
    exec_wmagic_closed hrun, exec_close_closed hrun⟩

end Sys2Proof.Machine
end

section
/-!
`ENCODE` at a byte without a code (`44_bitstream_encoder.md` R192, `60_exceptions.md` R262): the loop has written the codes of
the bytes before it and stands just after it.
-/

namespace Sys2Proof.Machine

/-- The loop of R192 at the first byte without a code: the codes of the bytes before it are written, the byte is read (R262). -/
theorem encodeLoop_noCode {s : State} {pre post : List Byte} {b : Byte} (hleft : s.bytesLeft = pre ++ b :: post)
    (hhas : ∀ c ∈ pre, s.codeHas[dataSymbol c] = true) (hb : s.codeHas[dataSymbol b] = false) :
    encodeLoop (pre ++ b :: post).length s =
      .raised .noCode { s with
        snkBits := s.snkBits ++ pre.flatMap fun c => s.codeOf (dataSymbol c)
        srcPos := s.srcPos + 8 * (pre.length + 1) } := by
  induction pre generalizing s with
  | nil =>
    obtain ⟨hread, -⟩ := readBits_of_bytesLeft_cons hleft
    rw [List.nil_append, List.length_cons, encodeLoop, hread]
    simp only [hb, Bool.false_eq_true, if_false, List.flatMap_nil, List.append_nil, List.length_nil]
  | cons c pre ih =>
    obtain ⟨hread, hrest⟩ := readBits_of_bytesLeft_cons hleft
    obtain ⟨hc, hhas⟩ := List.forall_mem_cons.mp hhas
    have hnext := ih (s := { s with srcPos := s.srcPos + 8 }.writeCode (dataSymbol c)) hrest hhas hb
    have hpos : s.srcPos + 8 + 8 * (pre.length + 1) = s.srcPos + 8 * (pre.length + 1 + 1) := by omega
    rw [List.cons_append, List.length_cons, encodeLoop, hread]
    simp only [hc, if_true, hnext, List.flatMap_cons, State.writeCode_snkBits, State.writeCode_srcPos, hpos,
      List.append_assoc, List.length_cons]
    rfl

/-- Settles O38: past its precondition `ENCODE` is its loop, which ends at the first byte without a code. -/
theorem encodeNoCode : Obligations.EncodeNoCode := by
  intro s pre post b hrun hcodes hopen hleft hhas hb
  have hready : (s.codeValid && s.sinkOpen) = true := by
    rw [hcodes, State.sinkOpen, hopen]
    rfl
  refine (issue_idle hrun).trans ?_
  rw [encodeBody, hready, require_true, andThen_ok, ← bytesLeft_length, hleft, encodeLoop_noCode hleft hhas hb,
    andThen_raised, finish_raised]

end Sys2Proof.Machine
end

section
/-!
`DECODE` on a source that ends before a sentinel's code (`45_bitstream_decoder.md` R210, `60_exceptions.md` R253): the codes
before the end lead back to the root, and from there the bits left do not reach a leaf.
-/

namespace Sys2Proof.Machine

/-- The byte that a data symbol is written as has the value of the symbol (R8, R96). -/
theorem dataByte_toNat {v : SymField} (hv : v.toNat ≤ 256) (hne : v ≠ Config.pseudoEof) : (dataByte v).toNat = v.toNat := by
  have hlt : v.toNat < 256 := Nat.lt_of_le_of_ne hv fun h => hne (BitVec.eq_of_toNat_eq h)
  rw [dataByte, BitVec.extractLsb'_toNat, Nat.shiftRight_zero, Nat.mod_eq_of_lt hlt]

theorem dataField_dataByte {v : SymField} (hv : v.toNat ≤ 256) (hne : v ≠ Config.pseudoEof) :
    dataField (dataByte v) = v := by
  refine BitVec.eq_of_toNat_eq ?_
  rw [dataField, ofNat_symbol_toNat]
  exact dataByte_toNat hv hne

/-- The bytes that the codes of a list of data symbols stand for (R210). -/
def bytesOfCodes (cs : List (SymField × List Bool)) : List Byte := cs.map fun c => dataByte c.1

theorem bytesOfCodes_map_toNat {t : Shape} {cs : List (SymField × List Bool)} (hok : t.symbolsOk)
    (hcs : ∀ c ∈ cs, c ∈ t.paths ∧ c.1 ≠ Config.pseudoEof) :
    (bytesOfCodes cs).map BitVec.toNat = cs.map fun c => c.1.toNat := by
  rw [bytesOfCodes, List.map_map]
  refine List.map_congr_left fun c hc => ?_
  obtain ⟨hpath, hdata⟩ := hcs c hc
  exact dataByte_toNat (hok c.1 (Shape.mem_syms.mpr ⟨c.2, hpath⟩)) hdata

/-- The codes of data symbols at the root of a tree with more than one leaf write their bytes and lead back to the root
(R210). -/
theorem decodeAt_codes {t : ITree} {s : State} {cs : List (SymField × List Bool)} {rest : List Bool} {n : Node} (k : Nat)
    (htop : t.top = s.root) (hroot : s.node? s.root = some n) (hinner : n.leaf = false)
    (hstored : t.storedIn s.nodes = true) (hok : t.shape.symbolsOk)
    (hcs : ∀ c ∈ cs, c ∈ t.shape.paths ∧ c.1 ≠ Config.pseudoEof)
    (hsrc : s.srcBits.drop s.srcPos = cs.flatMap Prod.snd ++ rest) :
    decodeAt ((cs.flatMap Prod.snd).length + k) s.root s =
      decodeAt k s.root { s.appendBits ((bytesOfCodes cs).flatMap byteBits) with
        srcPos := s.srcPos + (cs.flatMap Prod.snd).length } := by
  induction cs generalizing s with
  | nil => simp only [bytesOfCodes, List.map_nil, List.flatMap_nil, List.length_nil, Nat.zero_add, State.appendBits,
      List.append_nil, Nat.add_zero]
  | cons c cs ih =>
    obtain ⟨v, p⟩ := c
    obtain ⟨⟨hp, hne⟩, hcs⟩ := List.forall_mem_cons.mp hcs
    have hfield := dataField_dataByte (hok v (Shape.mem_syms.mpr ⟨p, hp⟩)) hne
    rw [List.flatMap_cons, List.append_assoc] at hsrc
    have hrest := ih (s := { s.appendBits (byteBits (dataByte v)) with srcPos := s.srcPos + p.length }) htop hroot hstored
      hcs (drop_srcPos_add hsrc)
    rw [List.flatMap_cons, List.length_append, Nat.add_assoc,
      decodeAt_byte _ htop hroot hinner hstored (by rwa [hfield]) hsrc]
    refine hrest.trans ?_
    simp only [State.appendBits, bytesOfCodes, List.map_cons, List.flatMap_cons, List.append_assoc, Nat.add_assoc]

/-- At an internal node with no bit left the read answers `EOS` and raises (R253). -/
theorem decodeAt_eos {i : NodeIdx} {s : State} {n : Node} (hn : s.node? i = some n) (hleaf : n.leaf = false)
    (hsrc : s.srcBits.drop s.srcPos = []) :
    decodeAt 0 i s = .raised .payloadTruncated { s with srcPos := s.srcEnd, cur := i } := by
  have hlen : (s.srcBits.drop s.srcPos).length < 1 := by rw [hsrc]; exact Nat.one_pos
  have hread := readBits_of_length_lt (s := { s with cur := i }) hlen
  rw [decodeAt_internal hn hleaf, decodeLoop, hread]
  rfl

/-- A bit and, at the child it leads to, the end of the source (R253). -/
theorem decodeAt_truncated_cons {i : NodeIdx} {s : State} {n : Node} {c : ITree} {q : List Bool} (b : BitVec 1)
    (hn : s.node? i = some n) (hleaf : n.leaf = false) (hchild : n.child b = c.top)
    (hsrc : s.srcBits.drop s.srcPos = bits 1 b.toNat ++ q)
    (hend : ∃ cur, decodeAt q.length c.top { s with cur := i, srcPos := s.srcPos + 1 } =
      .raised .payloadTruncated { s with srcPos := s.srcEnd, cur := cur }) :
    ∃ cur, decodeAt (q.length + 1) i s = .raised .payloadTruncated { s with srcPos := s.srcEnd, cur := cur } := by
  rwa [decodeAt_turn b hn hleaf hsrc, hchild]

/-- The bits left are the start of a path and end before its leaf: the walk from the top of a stored tree meets the end of
the source (R253). -/
theorem decodeAt_truncated {t : ITree} {s : State} {v : SymField} {p q : List Bool} (hstored : t.storedIn s.nodes = true)
    (hp : (v, p) ∈ t.shape.paths) (hq : q <+: p) (hne : q ≠ p) (hsrc : s.srcBits.drop s.srcPos = q) :
    ∃ cur, decodeAt q.length t.top s = .raised .payloadTruncated { s with srcPos := s.srcEnd, cur := cur } := by
  induction t generalizing s p q with
  | leaf i x =>
    obtain ⟨-, rfl⟩ := Prod.mk.inj (List.mem_singleton.mp hp)
    exact absurd (List.prefix_nil.mp hq) hne
  | node i l r hl hr =>
    obtain ⟨⟨n, hn, hleaf, hleft, hright⟩, hstoredL, hstoredR⟩ := storedIn_node hstored
    cases q with
    | nil => exact ⟨i, decodeAt_eos hn hleaf hsrc⟩
    | cons b q =>
      rcases Shape.mem_paths_node.mp hp with ⟨p', hp', rfl⟩ | ⟨p', hp', rfl⟩
      · obtain ⟨rfl, hq'⟩ := List.cons_prefix_cons.mp hq
        exact decodeAt_truncated_cons 0#1 hn hleaf hleft hsrc
          (hl (s := { s with cur := i, srcPos := s.srcPos + 1 }) hstoredL hp' hq' (fun h => hne (h ▸ rfl))
            (drop_srcPos_add (l := [false]) hsrc))
      · obtain ⟨rfl, hq'⟩ := List.cons_prefix_cons.mp hq
        exact decodeAt_truncated_cons 1#1 hn hleaf hright hsrc
          (hr (s := { s with cur := i, srcPos := s.srcPos + 1 }) hstoredR hp' hq' (fun h => hne (h ▸ rfl))
            (drop_srcPos_add (l := [true]) hsrc))

/-- Settles O41: the whole codes lead back to the root, and the walk from there meets the end of the source. -/
theorem decodeTruncated : Obligations.DecodeTruncated := by
  rintro s t cs q hrun htree hopen ⟨htop, hstored, -, -, -, hok⟩ hleaves hcs ⟨⟨v, p⟩, hp, hq, hne⟩ hsrc
  cases t with
  | leaf i x => exact absurd (show 2 ≤ 1 from hleaves) (by decide)
  | node i l r =>
    obtain ⟨⟨n, hn, hinner, -⟩, -⟩ := storedIn_node hstored
    have hroot : s.node? s.root = some n := htop ▸ hn
    have hleft : s.srcLeft = (cs.flatMap Prod.snd).length + q.length := by
      have hlen := congrArg List.length hsrc
      rwa [List.length_drop, srcBits_length, List.length_append] at hlen
    obtain ⟨cur, hend⟩ := decodeAt_truncated
      (s := { s.appendBits ((bytesOfCodes cs).flatMap byteBits) with srcPos := s.srcPos + (cs.flatMap Prod.snd).length })
      hstored hp hq hne (drop_srcPos_add hsrc)
    rw [htop] at hend
    refine ⟨cur, bytesOfCodes cs, (issue_idle hrun).trans ?_, bytesOfCodes_map_toNat hok hcs⟩
    rw [decodeBody_of_root_internal htree hopen hroot hinner, hleft,
      decodeAt_codes q.length htop hroot hinner hstored hok hcs hsrc, hend, finish_raised]
    rfl

end Sys2Proof.Machine
end

section
/-!
Which reasons each command body can raise (`60_exceptions.md` R266): the compressor's bodies only usage errors, the readers of
the header fields only format errors, `FCOUNT` and `REWIND` none.
-/

namespace Sys2Proof.Machine

/-- A body, or a line of one, raises for no other reasons than those of `P`. -/
def Ended.RaisesOnly (P : Reason → Prop) (e : Ended) : Prop :=
  match e with
  | .ok _ => True
  | .raised why _ => P why
  | .fault _ => True
  | .refused _ => True

/-- A reason that is not of class `FormatError` (R250). -/
abbrev UsageError (why : Reason) : Prop := why.isFormatError = false

/-- A reason of class `FormatError` (R250). -/
abbrev FormatError (why : Reason) : Prop := why.isFormatError = true

/-- A command that has ended in `ERROR` has raised, for a reason its body can raise for (R257). -/
theorem Ended.RaisesOnly.of_issue {P : Reason → Prop} {body : State → Ended} {s u : State} (hb : (body s).RaisesOnly P)
    (hrun : s.run = .idle) (h : issue body s = .next u) (herr : u.run = .error) : P u.err := by
  rw [issue_idle hrun] at h
  cases hbody : body s with
  | ok v =>
    rw [hbody] at h
    obtain rfl := Host.Outcome.next.inj h
    exact RunState.noConfusion herr
  | raised why v =>
    rw [hbody] at h hb
    rw [← Host.Outcome.next.inj h, errorEntry_err]
    exact hb
  | fault f => rw [hbody] at h; cases h
  | refused r => rw [hbody] at h; cases h

section
variable {P : Reason → Prop}

theorem Ended.RaisesOnly.andThen {e : Ended} {k : State → Ended} (he : e.RaisesOnly P) (hk : ∀ s, (k s).RaisesOnly P) :
    (e.andThen k).RaisesOnly P := by
  cases e with
  | ok s => exact hk s
  | raised why s => exact he
  | fault f => trivial
  | refused r => trivial

theorem require_raisesOnly (p : Bool) {why : Reason} (s : State) (h : P why) : (require p why s).RaisesOnly P := by
  cases p with
  | false => exact h
  | true => trivial

/-! ### The compressor -/

theorem fcountBody_raisesOnly (s : State) : (fcountBody s).RaisesOnly P := by
  unfold fcountBody
  split <;> trivial

theorem walk_raisesOnly (d : Nat) (i : NodeIdx) (p : List Bool) (s : State) : (walk d i p s).RaisesOnly P := by
  induction d generalizing i p s with
  | zero => trivial
  | succ d ih =>
    rw [walk]
    split
    · trivial
    · split
      · split <;> trivial
      · exact (ih _ _ s).andThen (ih _ _)

theorem putTree_raisesOnly (d : Nat) (i : NodeIdx) (s : State) : (putTree d i s).RaisesOnly P := by
  induction d generalizing i s with
  | zero => trivial
  | succ d ih =>
    rw [putTree]
    split
    · trivial
    · split
      · trivial
      · exact (ih _ _).andThen (ih _)

end

/-- A precondition raises `SEQ_ERROR`, a usage error (R256). -/
theorem require_seqError_raisesOnly (p : Bool) (s : State) : (require p .seqError s).RaisesOnly UsageError :=
  require_raisesOnly p s rfl

theorem tbuildBody_raisesOnly (s : State) : (tbuildBody s).RaisesOnly UsageError := by
  refine (require_seqError_raisesOnly _ s).andThen fun u => ?_
  split <;> trivial

theorem cgenBody_raisesOnly (s : State) : (cgenBody s).RaisesOnly UsageError :=
  (require_seqError_raisesOnly _ s).andThen fun _ => (walk_raisesOnly _ _ _ _).andThen fun _ => trivial

theorem wmagicBody_raisesOnly (s : State) : (wmagicBody s).RaisesOnly UsageError :=
  (require_seqError_raisesOnly _ s).andThen fun _ => trivial

theorem whdrBody_raisesOnly (s : State) : (whdrBody s).RaisesOnly UsageError :=
  (require_seqError_raisesOnly _ s).andThen fun _ => putTree_raisesOnly _ _ _

theorem encodeLoop_raisesOnly (n : Nat) (s : State) : (encodeLoop n s).RaisesOnly UsageError := by
  induction n generalizing s with
  | zero => trivial
  | succ n ih =>
    rw [encodeLoop]
    split
    · trivial
    · split
      · exact ih _
      · rfl

theorem encodeBody_raisesOnly (s : State) : (encodeBody s).RaisesOnly UsageError :=
  (require_seqError_raisesOnly _ s).andThen fun _ => (encodeLoop_raisesOnly _ _).andThen fun _ => trivial

theorem closeBody_raisesOnly (s : State) : (closeBody s).RaisesOnly UsageError :=
  (require_seqError_raisesOnly _ s).andThen fun _ => trivial

theorem rewindBody_raisesOnly {P : Reason → Prop} (s : State) : (rewindBody s).RaisesOnly P := trivial

/-- `COMPRESS` raises what its steps raise (R104, R230). -/
theorem compressBody_raisesOnly (s : State) : (compressBody s).RaisesOnly UsageError :=
  ((((((((fcountBody_raisesOnly s).andThen tbuildBody_raisesOnly).andThen cgenBody_raisesOnly).andThen
    wmagicBody_raisesOnly).andThen whdrBody_raisesOnly).andThen rewindBody_raisesOnly).andThen
      encodeBody_raisesOnly).andThen closeBody_raisesOnly).andThen fun _ => trivial

/-! ### The readers of the header -/

theorem rmagicBody_raisesOnly (s : State) : (rmagicBody s).RaisesOnly FormatError := by
  unfold rmagicBody
  split
  · rfl
  · exact require_raisesOnly _ _ rfl

theorem returnNode_raisesOnly {P : Reason → Prop} (l : List Pending) (i : NodeIdx) (s : State) :
    (returnNode l i s).RaisesOnly P := by
  induction l generalizing i s with
  | nil => trivial
  | cons c l ih =>
    obtain ⟨j, left⟩ := c
    cases left with
    | none => trivial
    | some k =>
      rw [returnNode]
      split
      · trivial
      · exact ih _ _

theorem takeInternal_raisesOnly (s : State) : (takeInternal s).RaisesOnly FormatError := by
  unfold takeInternal
  split
  · rfl
  · trivial

theorem takeLeaf_raisesOnly (v : SymField) (s : State) : (takeLeaf v s).RaisesOnly FormatError := by
  unfold takeLeaf
  split
  · rfl
  · split
    · rfl
    · split
      · trivial
      · exact returnNode_raisesOnly _ _ _

theorem takeRecord_raisesOnly (i : Instr) (s : State) : (takeRecord i s).RaisesOnly FormatError := by
  cases i with
  | hdrLeaf v => exact takeLeaf_raisesOnly v s
  | hdrInternal => exact takeInternal_raisesOnly s
  | _ => trivial

/-- The reads of a record raise for the capacity or for the end of the source (R171, R252, R254). -/
theorem fetchRecord_formatError {s u : State} {why : Reason} (h : fetchRecord s = .raised why u) : FormatError why := by
  unfold fetchRecord at h
  split at h
  · obtain ⟨rfl, -⟩ := Fetched.raised.inj h
    rfl
  · split at h
    · obtain ⟨rfl, -⟩ := Fetched.raised.inj h
      rfl
    · split at h
      · exact Fetched.noConfusion h
      · split at h
        · obtain ⟨rfl, -⟩ := Fetched.raised.inj h
          rfl
        · exact Fetched.noConfusion h

theorem headerTurn_raisesOnly (s : State) : (headerTurn s).RaisesOnly FormatError := by
  unfold headerTurn
  split
  next why u h => exact fetchRecord_formatError h
  next i u h => exact takeRecord_raisesOnly i u

theorem headerLoop_raisesOnly (n : Nat) (s : State) : (headerLoop n s).RaisesOnly FormatError := by
  induction n generalizing s with
  | zero => rfl
  | succ n ih =>
    refine (headerTurn_raisesOnly s).andThen fun u => ?_
    split
    · trivial
    · exact ih u

theorem rhdrBody_raisesOnly (s : State) : (rhdrBody s).RaisesOnly FormatError := headerLoop_raisesOnly _ _

/-- A compression command that ends in `ERROR` has raised a usage error (R266). -/
theorem usageError_of_compression {s u : State} {i : Instr}
    (hi : i ∈ [.fcount, .tbuild, .cgen, .wmagic, .whdr, .rewind, .encode, .close, .compress]) (hrun : s.run = .idle)
    (hexec : exec i s = .next u) (herr : u.run = .error) : UsageError u.err := by
  simp only [List.mem_cons, List.not_mem_nil, or_false] at hi
  rcases hi with rfl | rfl | rfl | rfl | rfl | rfl | rfl | rfl | rfl
  · exact (fcountBody_raisesOnly s).of_issue hrun hexec herr
  · exact (tbuildBody_raisesOnly s).of_issue hrun hexec herr
  · exact (cgenBody_raisesOnly s).of_issue hrun hexec herr
  · exact (wmagicBody_raisesOnly s).of_issue hrun hexec herr
  · exact (whdrBody_raisesOnly s).of_issue hrun hexec herr
  · exact (rewindBody_raisesOnly s).of_issue hrun hexec herr
  · exact (encodeBody_raisesOnly s).of_issue hrun hexec herr
  · exact (closeBody_raisesOnly s).of_issue hrun hexec herr
  · exact (compressBody_raisesOnly s).of_issue hrun hexec herr

/-- `FCOUNT` and `REWIND` raise nothing (R266): their bodies raise for no reason at all. -/
theorem ne_fcount_ne_rewind_of_error {s u : State} {i : Instr} (hrun : s.run = .idle) (hexec : exec i s = .next u)
    (herr : u.run = .error) : i ≠ .fcount ∧ i ≠ .rewind := by
  constructor
  · rintro rfl
    exact (fcountBody_raisesOnly (P := fun _ => False) s).of_issue hrun hexec herr
  · rintro rfl
    exact (rewindBody_raisesOnly (P := fun _ => False) s).of_issue hrun hexec herr

/-- `RMAGIC` or `RHDR` that ends in `ERROR` has raised a format error (R266). -/
theorem formatError_of_header {s u : State} {i : Instr} (hi : i = .rmagic ∨ i = .rhdr) (hrun : s.run = .idle)
    (hexec : exec i s = .next u) (herr : u.run = .error) : FormatError u.err := by
  rcases hi with rfl | rfl
  · exact (rmagicBody_raisesOnly s).of_issue hrun hexec herr
  · exact (rhdrBody_raisesOnly s).of_issue hrun hexec herr

/-- Settles O59: a command that ends in `ERROR` has raised, and each body raises only for the reasons of its class. -/
theorem compressionRaisesNoFormatError : Obligations.CompressionRaisesNoFormatError := by
  intro s u i hrun hexec herr
  obtain ⟨hfcount, hrewind⟩ := ne_fcount_ne_rewind_of_error hrun hexec herr
  exact ⟨fun hi => usageError_of_compression hi hrun hexec herr, hfcount, hrewind,
    fun hi => formatError_of_header hi hrun hexec herr⟩

end Sys2Proof.Machine
end

section
/-!
Reset (`10_state.md` R33, `60_exceptions.md` R258, `70_reset_and_hazards.md` R290): what `SRESET` leaves, and that the machine then waits.
-/

namespace Sys2Proof.Machine

/-- `SRESET` is accepted in `IDLE` and in `ERROR` (R232, R258). -/
theorem exec_sreset {s : State} (h : s.run = .idle ∨ s.run = .error) : exec .sreset s = .next (softReset s) := by
  change execSreset s = .next (softReset s)
  unfold execSreset
  rcases h with h | h <;> rw [h]

/-- In `IDLE` with no flag set `STATUS` reads 0 (R25). -/
theorem status_eq_zero {s : State} (hrun : s.run = .idle) (hfreq : s.freqValid = false) (htree : s.treeState = .none)
    (hcode : s.codeValid = false) (hsnk : s.snkClosed = false) : s.status = 0x00#8 := by
  rw [State.status, hrun, hfreq, htree, hcode, hsnk]
  decide

/-- With no reason recorded `ERR` reads 0 (R26). -/
theorem errWord_eq_zero {s : State} (h : s.err = .noError) : s.errWord = 0x00#8 := by
  rw [State.errWord, h]
  decide

/-- What `SRESET` keeps (the parameters, the pending words, the bound source) is none of what R33 gives a value. -/
theorem atReset_softReset (s : State) : AtReset (softReset s) :=
  ⟨status_eq_zero rfl rfl rfl rfl rfl, errWord_eq_zero rfl, rfl, rfl, rfl, rfl, rfl, rfl, rfl, rfl, rfl, rfl, rfl, rfl⟩

/-- With no word pending there is nothing to run while no unit reads the stream (R290, R258). -/
theorem fetch_eq_stay {s : State} (hcmds : s.cmds = []) (hrun : s.run = .idle ∨ s.run = .error) : fetch s = .stay s := by
  unfold fetch
  rw [hcmds]
  rcases hrun with h | h <;> rw [h]

theorem step_of_fetch_stay {s u : State} (h : fetch s = .stay u) : step s = .next u := by
  unfold step
  rw [h]

/-- Settles O12: the reset state is its own soft reset, `SRESET` is a soft reset, and a machine in `IDLE` with no word pending
waits. -/
theorem resetAndSresetState : Obligations.ResetAndSresetState := by
  refine ⟨atReset_softReset State.reset, fun s hrun => ⟨softReset s, exec_sreset hrun, atReset_softReset s⟩, ?_⟩
  intro s hreset hcmds
  obtain ⟨-, -, hidle, -⟩ := hreset
  exact step_of_fetch_stay (fetch_eq_stay hcmds (.inl hidle))

end Sys2Proof.Machine
end

section
/-!
The two encodings (`30_encoding.md` R91, R92, R100 to R102): decoder and encoder undo each other, row by row.
-/

namespace Sys2Proof.Machine

/-! ### The command word -/

/-- The commands of R101, in the order of their `op` codes. -/
def commands : List Instr :=
  [.fcount, .tbuild, .cgen, .wmagic, .whdr, .rewind, .encode, .close, .rmagic, .rhdr, .decode, .compress, .decompress,
    .sreset]

/-- The word of a command (R100, R101). -/
def commandWord (i : Instr) : Byte := BitVec.ofNat 8 (opcode i)

theorem mem_commands {i : Instr} : i ∈ commands ↔ i.format = .cmd8 := by
  cases i <;> simp [commands, Instr.format]

/-- The list of R101 is the words of the commands. -/
theorem commandWords_eq_map : commandWords = commands.map commandWord := by decide

/-- A word whose bits 7:4 are 0000 is its `op` field (R100). -/
theorem eq_ofNat_opField {w : Byte} (h : w.extractLsb' 4 4 = 0#4) : w = BitVec.ofNat 8 (w.extractLsb' 0 4).toNat := by
  have hfield := congrArg BitVec.toNat h
  refine BitVec.eq_of_toNat_eq ?_
  simp only [BitVec.extractLsb'_toNat, BitVec.toNat_ofNat] at hfield ⊢
  omega

/-- The command decoder accepts exactly the words of the commands, each for its command (R101, R102). -/
theorem decodeCmd_eq_ok {w : Byte} {i : Instr} : decodeCmd w = .ok i ↔ i ∈ commands ∧ w = commandWord i := by
  constructor
  · intro h
    unfold decodeCmd at h
    split at h
    next hzero =>
      have hw := eq_ofNat_opField hzero
      split at h <;> cases h <;> exact ⟨by decide, hw.trans (congrArg (BitVec.ofNat 8) ‹_›)⟩
    next => cases h
  · rintro ⟨hi, rfl⟩
    revert i
    simp only [commands, List.forall_mem_cons]
    decide

theorem exists_decodeCmd_iff {w : Byte} : (∃ i, decodeCmd w = .ok i) ↔ w ∈ commandWords := by
  simp only [decodeCmd_eq_ok, commandWords_eq_map, List.mem_map, eq_comm (a := w)]

/-- Settles O3: the words accepted are those of the commands, and R101 lists these. -/
theorem onlyListedWordsAreCommands : Obligations.OnlyListedWordsAreCommands := fun _ => exists_decodeCmd_iff

/-- Settles O4: the decoder evaluates to the listed instruction on each word. -/
theorem specWordsDecode : Obligations.SpecWordsDecode :=
  ⟨rfl, rfl, rfl, rfl, rfl, rfl, rfl, rfl, rfl, rfl, rfl, rfl, rfl, rfl, rfl, rfl, rfl⟩

/-! ### Decoding what is encoded -/

/-- The encoding of a command is its word (R100). -/
theorem encode_eq_bits_commandWord {i : Instr} (hi : i ∈ commands) : encode i = bits 8 (commandWord i).toNat := by
  revert i
  simp only [commands, List.forall_mem_cons]
  decide

theorem ofNat_val_bits {w : Nat} (v : BitVec w) : BitVec.ofNat w (val (bits w v.toNat)) = v := by
  rw [val_bits_of_lt v.isLt, BitVec.ofNat_toNat, BitVec.setWidth_eq]

/-- A field of `w` bits holds the value it was written with (R6). -/
theorem bits_toNat_ofNat_val {w : Nat} {l : List Bool} (h : l.length = w) : bits w (BitVec.ofNat w (val l)).toNat = l := by
  subst h
  rw [BitVec.toNat_ofNat, Nat.mod_eq_of_lt (val_lt l), bits_val]

theorem decode_cmd8_append {l rest : List Bool} (h : l.length = 8) :
    decode .cmd8 (l ++ rest) = (decodeCmd (BitVec.ofNat 8 (val l))).map fun i => (i, rest) := by
  have hlen : ¬ (l ++ rest).length < 8 := by rw [List.length_append]; omega
  simp only [decode, if_neg hlen, List.take_left' h, List.drop_left' h]

theorem decode_stream32_append {l rest : List Bool} (h : l.length = 32) :
    decode .stream32 (l ++ rest) = .ok (.magicWord (BitVec.ofNat 32 (val l)), rest) := by
  have hlen : ¬ (l ++ rest).length < 32 := by rw [List.length_append]; omega
  simp only [decode, if_neg hlen, List.take_left' h, List.drop_left' h, decodeMagic]

theorem decode_internal (rest : List Bool) : decode .header (false :: rest) = .ok (.hdrInternal, rest) := rfl

theorem decode_leaf_append {l rest : List Bool} (h : l.length = 9) :
    decode .header (true :: (l ++ rest)) = .ok (.hdrLeaf (BitVec.ofNat 9 (val l)), rest) := by
  have hlen : ¬ (l ++ rest).length < 9 := by rw [List.length_append]; omega
  simp only [decode, if_neg hlen, List.take_left' h, List.drop_left' h]
  rfl

/-- The word of a command decodes to the command (R100, R101). -/
theorem decode_encode_command {i : Instr} (hi : i ∈ commands) (rest : List Bool) :
    decode .cmd8 (encode i ++ rest) = .ok (i, rest) := by
  rw [encode_eq_bits_commandWord hi, decode_cmd8_append (bits_length _ _), ofNat_val_bits,
    decodeCmd_eq_ok.mpr ⟨hi, rfl⟩]
  rfl

/-- Settles O1: by format, a field of fixed width being read as its value. -/
theorem decodeOfEncode : Obligations.DecodeOfEncode := by
  intro i rest
  cases hformat : i.format with
  | cmd8 => exact decode_encode_command (mem_commands.mpr hformat) rest
  | stream32 =>
    cases i with
    | magicWord m =>
      rw [encode, decode_stream32_append (bits_length _ _), ofNat_val_bits]
    | _ => cases hformat
  | header =>
    cases i with
    | hdrInternal => exact decode_internal rest
    | hdrLeaf v =>
      rw [encode, List.cons_append, decode_leaf_append (bits_length _ _), ofNat_val_bits]
    | _ => cases hformat

/-! ### Encoding what is decoded -/

/-- A string of at least `w` bits is a field of `w` bits and the rest. -/
theorem exists_append_of_length {w : Nat} {l : List Bool} (h : ¬ l.length < w) :
    ∃ a b : List Bool, a.length = w ∧ l = a ++ b :=
  ⟨l.take w, l.drop w, List.length_take_of_le (Nat.le_of_not_lt h), (List.take_append_drop w l).symm⟩

theorem encoding_of_decode_cmd8 {l rest : List Bool} {i : Instr} (h : decode .cmd8 l = .ok (i, rest)) :
    l = encode i ++ rest ∧ i.format = .cmd8 := by
  by_cases hlen : l.length < 8
  · simp [decode, hlen] at h
  · obtain ⟨a, b, ha, rfl⟩ := exists_append_of_length hlen
    rw [decode_cmd8_append ha] at h
    cases hcmd : decodeCmd (BitVec.ofNat 8 (val a)) with
    | error r => rw [hcmd] at h; cases h
    | ok j =>
      rw [hcmd] at h
      cases h
      obtain ⟨hi, hword⟩ := decodeCmd_eq_ok.mp hcmd
      refine ⟨?_, mem_commands.mp hi⟩
      rw [encode_eq_bits_commandWord hi, ← hword, bits_toNat_ofNat_val ha]

theorem encoding_of_decode_stream32 {l rest : List Bool} {i : Instr} (h : decode .stream32 l = .ok (i, rest)) :
    l = encode i ++ rest ∧ i.format = .stream32 := by
  by_cases hlen : l.length < 32
  · simp [decode, hlen] at h
  · obtain ⟨a, b, ha, rfl⟩ := exists_append_of_length hlen
    rw [decode_stream32_append ha] at h
    cases h
    exact ⟨by rw [encode, bits_toNat_ofNat_val ha], rfl⟩

theorem encoding_of_decode_header {l rest : List Bool} {i : Instr} (h : decode .header l = .ok (i, rest)) :
    l = encode i ++ rest ∧ i.format = .header := by
  match l with
  | [] => cases h
  | false :: l =>
    cases h
    exact ⟨rfl, rfl⟩
  | true :: l =>
    by_cases hlen : l.length < 9
    · simp [decode, hlen] at h
    · obtain ⟨a, b, ha, rfl⟩ := exists_append_of_length hlen
      rw [decode_leaf_append ha] at h
      cases h
      exact ⟨by rw [encode, bits_toNat_ofNat_val ha, List.cons_append], rfl⟩

/-- Settles O2: by format, a field of fixed width being the encoding of its value. -/
theorem decodedBitsAreTheEncoding : Obligations.DecodedBitsAreTheEncoding := by
  intro f l rest i h
  cases f with
  | cmd8 => exact encoding_of_decode_cmd8 h
  | stream32 => exact encoding_of_decode_stream32 h
  | header => exact encoding_of_decode_header h

end Sys2Proof.Machine
end

section
/-!
What a step finds to do (`10_state.md` R24, `30_encoding.md` R102): a pending word first, then the field that a unit reads,
and otherwise nothing.
-/

namespace Sys2Proof.Machine

theorem step_of_fetch_run {s u : State} {i : Instr} (h : fetch s = .run i u) : step s = exec i u := by
  unfold step
  rw [h]

theorem step_of_fetch_raised {s u : State} {why : Reason} (h : fetch s = .raised why u) :
    step s = .next (errorEntry why u) := by
  unfold step
  rw [h]
  exact finish_raised why u

/-! ### Pending words -/

theorem fetch_of_cmds_cons {s : State} {w : Byte} {rest : List Byte} (h : s.cmds = w :: rest) :
    fetch s = fetchCmd w { s with cmds := rest } := by
  unfold fetch
  rw [h]

theorem fetchCmd_of_decode {w : Byte} {i : Instr} (s : State) (h : decodeCmd w = .ok i) : fetchCmd w s = .run i s := by
  rw [fetchCmd, h]

theorem fetchCmd_of_notMem {w : Byte} (s : State) (h : w ∉ commandWords) : fetchCmd w s = illegalWord s := by
  cases hw : decodeCmd w with
  | ok i => exact absurd (exists_decodeCmd_iff.mp ⟨i, hw⟩) h
  | error r => rw [fetchCmd, hw]

theorem illegalWord_idle {s : State} (h : s.run = .idle) : illegalWord s = .raised .illegalCmd s := by
  rw [illegalWord, h]

theorem illegalWord_of_ne_idle {s : State} (h : s.run ≠ .idle) : illegalWord s = .stay s := by
  unfold illegalWord
  split
  · contradiction
  · rfl
  · rfl

/-- A word of R101 is that of a command, and the step runs it (R24). -/
theorem step_command {s : State} {w : Byte} {rest : List Byte} {i : Instr} (hcmds : s.cmds = w :: rest)
    (hw : decodeCmd w = .ok i) : step s = exec i { s with cmds := rest } :=
  step_of_fetch_run ((fetch_of_cmds_cons hcmds).trans (fetchCmd_of_decode _ hw))

/-- A word that is no command raises in `IDLE` (R102, R255). -/
theorem step_illegal_idle {s : State} {w : Byte} {rest : List Byte} (hcmds : s.cmds = w :: rest) (hw : w ∉ commandWords)
    (hrun : s.run = .idle) : step s = .next (errorEntry .illegalCmd { s with cmds := rest }) :=
  step_of_fetch_raised ((fetch_of_cmds_cons hcmds).trans ((fetchCmd_of_notMem _ hw).trans (illegalWord_idle hrun)))

/-- A word that is no command does nothing outside `IDLE` (R258, R24). -/
theorem step_illegal_of_ne_idle {s : State} {w : Byte} {rest : List Byte} (hcmds : s.cmds = w :: rest)
    (hw : w ∉ commandWords) (hrun : s.run ≠ .idle) : step s = .next { s with cmds := rest } :=
  step_of_fetch_stay ((fetch_of_cmds_cons hcmds).trans ((fetchCmd_of_notMem _ hw).trans (illegalWord_of_ne_idle hrun)))

/-- Settles O6: the pending word is fetched first, and what it decodes to is run. -/
theorem stepRunsTheCommand : Obligations.StepRunsTheCommand := fun _ _ _ _ => step_command

/-- Settles O8: the command decoder refuses such a word, and the mode decides between the error entry and nothing. -/
theorem illegalWordsRaise : Obligations.IllegalWordsRaise := fun _ _ _ hcmds hw =>
  ⟨step_illegal_idle hcmds hw, step_illegal_of_ne_idle hcmds hw⟩

/-- Settles O9: with no word and no reader there is nothing to fetch. -/
theorem idleMachineWaits : Obligations.IdleMachineWaits := by
  intro s hcmds hbusy
  refine step_of_fetch_stay (fetch_eq_stay hcmds ?_)
  cases hrun : s.run with
  | idle => exact .inl rfl
  | busy r => exact absurd hrun (hbusy r)
  | error => exact .inr rfl

/-! ### Commands outside `IDLE` -/

/-- While a unit reads, a command changes nothing (R24). -/
theorem exec_command_busy {s : State} {r : Reader} {i : Instr} (hi : i ∈ commands) (hrun : s.run = .busy r) :
    exec i s = .next s := by
  have hformat := mem_commands.mp hi
  cases i with
  | magicWord m => cases hformat
  | hdrInternal => cases hformat
  | hdrLeaf v => cases hformat
  | sreset =>
    change execSreset s = .next s
    simp only [execSreset, hrun]
  | _ => exact issue_busy hrun

/-- In `ERROR` every instruction but `SRESET` changes nothing (R258). -/
theorem exec_error {s : State} {i : Instr} (hrun : s.run = .error) (hi : i ≠ .sreset) : exec i s = .next s := by
  cases i with
  | magicWord m =>
    change execMagicWord m s = .next s
    simp only [execMagicWord, hrun]
  | hdrInternal =>
    change execHdrInternal s = .next s
    simp only [execHdrInternal, hrun]
  | hdrLeaf v =>
    change execHdrLeaf v s = .next s
    simp only [execHdrLeaf, hrun]
  | sreset => exact absurd rfl hi
  | _ => exact issue_error hrun

/-- In `ERROR` every word but that of `SRESET` changes nothing (R258). -/
theorem step_error_word {s : State} {w : Byte} {rest : List Byte} (hrun : s.run = .error) (hcmds : s.cmds = w :: rest)
    (hw : w ≠ 0x0F#8) : step s = .next { s with cmds := rest } := by
  by_cases hmem : w ∈ commandWords
  · obtain ⟨i, hi⟩ := exists_decodeCmd_iff.mpr hmem
    obtain ⟨-, hword⟩ := decodeCmd_eq_ok.mp hi
    rw [step_command hcmds hi]
    exact exec_error hrun fun h => hw (hword.trans (by rw [h]; rfl))
  · exact step_illegal_of_ne_idle hcmds hmem (by rw [hrun]; exact RunState.noConfusion)

/-- While a unit reads, every word is taken off the list and changes nothing else (R24). -/
theorem step_busy_word {s : State} {r : Reader} {w : Byte} {rest : List Byte} (hrun : s.run = .busy r)
    (hcmds : s.cmds = w :: rest) : step s = .next { s with cmds := rest } := by
  by_cases hmem : w ∈ commandWords
  · obtain ⟨i, hi⟩ := exists_decodeCmd_iff.mpr hmem
    rw [step_command hcmds hi]
    exact exec_command_busy (decodeCmd_eq_ok.mp hi).1 hrun
  · exact step_illegal_of_ne_idle hcmds hmem (by rw [hrun]; exact RunState.noConfusion)

/-- Settles O10: `SRESET` is a soft reset, and nothing else is accepted in `ERROR`. -/
theorem errorIsSticky : Obligations.ErrorIsSticky :=
  ⟨atReset_softReset State.reset, fun s hrun => ⟨fun _ => exec_error hrun, fun _ _ => step_error_word hrun,
    softReset s, exec_sreset (.inr hrun), atReset_softReset s⟩⟩

/-- Settles O11: neither a command nor an illegal word does anything while a unit reads. -/
theorem busyIgnoresCommandWrites : Obligations.BusyIgnoresCommandWrites := fun _ _ _ _ => step_busy_word

/-- Settles O13: the next state of `SRESET` is the soft reset written out. -/
theorem sresetResult : Obligations.SresetResult := fun _ => exec_sreset

/-! ### Fields of the stream -/

theorem fetch_of_cmds_nil {s : State} {r : Reader} (hcmds : s.cmds = []) (hrun : s.run = .busy r) :
    fetch s = fetchField r s := by
  unfold fetch
  rw [hcmds, hrun]

/-- A magic field next in the source is what the magic check reads (R170). -/
theorem fetchMagic_field {s : State} {m : BitVec 32} {rest : List Bool}
    (h : s.srcBits.drop s.srcPos = encode (.magicWord m) ++ rest) :
    fetchMagic s = .instr (.magicWord m) { s with srcPos := s.srcPos + 32 } := by
  rw [fetchMagic, readBits_field (by decide) h]
  rfl

/-- A "0" next in the source is an internal record (R92, R171). -/
theorem fetchRecord_internal {s : State} {rest : List Bool} (hcap : s.nodeCount ≠ BitVec.ofNat 10 Config.nodeCap)
    (h : s.srcBits.drop s.srcPos = encode .hdrInternal ++ rest) :
    fetchRecord s = .instr .hdrInternal { s with srcPos := s.srcPos + 1 } := by
  have hread := readBits_field (m := 0#1) Nat.one_pos h
  simp only [fetchRecord, if_neg hcap, hread, if_true, decodeRecord]

/-- A "1" and nine bits next in the source are a leaf record (R92, R171). -/
theorem fetchRecord_leaf {s : State} {v : SymField} {rest : List Bool}
    (hcap : s.nodeCount ≠ BitVec.ofNat 10 Config.nodeCap)
    (h : s.srcBits.drop s.srcPos = encode (.hdrLeaf v) ++ rest) :
    fetchRecord s = .instr (.hdrLeaf v) { s with srcPos := s.srcPos + 10 } := by
  have hread := readBits_field (m := 1#1) Nat.one_pos h
  have hread' := readBits_field (s := { s with srcPos := s.srcPos + 1 }) (m := v) (by decide)
    (drop_srcPos_add (l := [true]) h)
  simp only [fetchRecord, if_neg hcap, hread, hread', decodeRecord, show ¬ 1#1 = 0#1 by decide, if_false]

/-- The record next in the source is what the header reader reads (R92, R171). -/
theorem fetchRecord_field {s : State} {i : Instr} {rest : List Bool} (hi : i.format = .header)
    (hcap : s.nodeCount ≠ BitVec.ofNat 10 Config.nodeCap) (h : s.srcBits.drop s.srcPos = encode i ++ rest) :
    fetchRecord s = .instr i { s with srcPos := s.srcPos + (encode i).length } := by
  cases i with
  | hdrInternal => exact fetchRecord_internal hcap h
  | hdrLeaf v =>
    rw [fetchRecord_leaf hcap h, show (encode (.hdrLeaf v)).length = 10 from Laws.EncodedLength.hdrLeaf v]
  | _ => cases hi

/-- Settles O7: the bits that decode to a field are its encoding, which the unit reads back. -/
theorem stepRunsTheStreamField : Obligations.StepRunsTheStreamField := by
  intro s r i rest hrun hcmds hcap h
  have hcap' : s.nodeCount ≠ BitVec.ofNat 10 Config.nodeCap := fun he => hcap (congrArg BitVec.toNat he)
  cases r with
  | magic =>
    obtain ⟨hbits, hformat⟩ := encoding_of_decode_stream32 h
    refine ⟨step_of_fetch_run ((fetch_of_cmds_nil hcmds hrun).trans ?_), drop_srcPos_add hbits⟩
    cases i with
    | magicWord m =>
      rw [fetchField, fetchMagic_field hbits, show (encode (.magicWord m)).length = 32 from
        Laws.EncodedLength.magicWord m]
    | _ => cases hformat
  | header =>
    obtain ⟨hbits, hformat⟩ := encoding_of_decode_header h
    refine ⟨step_of_fetch_run ((fetch_of_cmds_nil hcmds hrun).trans ?_), drop_srcPos_add hbits⟩
    rw [fetchField, fetchRecord_field hformat hcap' hbits]

/-- A record that leaves a call pending leaves the header reader waiting (R171). -/
theorem continueHeader_pending {s : State} {c : Pending} {l : List Pending} (h : s.stack = c :: l) :
    continueHeader (.ok s) = .next s := by
  rw [continueHeader, State.headerDone, h]
  rfl

/-- A record that leaves no call pending ends `RHDR` (R171). -/
theorem continueHeader_done {s : State} (h : s.stack = []) : continueHeader (.ok s) = .next { s with run := .idle } := by
  simp only [continueHeader, State.headerDone, h, List.isEmpty_nil, if_true, finish]

theorem takeInternal_full {s : State} (h : s.nodeCount = BitVec.ofNat 10 Config.nodeCap) :
    takeInternal s = .raised .treeTooLarge s := if_pos h

theorem takeInternal_room {s : State} (h : s.nodeCount ≠ BitVec.ofNat 10 Config.nodeCap) :
    takeInternal s = .ok { s.countNode with stack := ⟨s.nodeCount, none⟩ :: s.stack } := if_neg h

theorem takeLeaf_full {s : State} (v : SymField) (h : s.nodeCount = BitVec.ofNat 10 Config.nodeCap) :
    takeLeaf v s = .raised .treeTooLarge s := if_pos h

theorem takeLeaf_reserved {s : State} {v : SymField} (h : s.nodeCount ≠ BitVec.ofNat 10 Config.nodeCap)
    (hv : 256 < v.toNat) : takeLeaf v s = .raised .badSymbol s.countNode := (if_neg h).trans (if_pos hv)

/-- A leaf with a symbol gets the next entry and is returned to the call that waits for it (R171). -/
theorem takeLeaf_symbol {s : State} {v : SymField} {e : Fin 513} (he : s.nodeCount.toNat = e.val) (hv : v.toNat ≤ 256) :
    takeLeaf v s = returnNode s.stack s.nodeCount
      (s.countNode.setNode e ⟨true, v, Config.nil, Config.nil, Config.freeWeight s.freeTick⟩).tick := by
  have hcap : s.nodeCount ≠ BitVec.ofNat 10 Config.nodeCap := fun h =>
    absurd e.isLt (Nat.not_lt.mpr (he.symm.trans (congrArg BitVec.toNat h)).ge)
  rw [takeLeaf, if_neg hcap, if_neg (Nat.not_lt.mpr hv), entry?_eq_some.mpr he]

theorem exec_hdrInternal {s : State} (hrun : s.run = .busy .header) :
    exec .hdrInternal s = continueHeader (takeInternal s) := by
  change execHdrInternal s = _
  rw [execHdrInternal, hrun]

theorem exec_hdrLeaf {s : State} (v : SymField) (hrun : s.run = .busy .header) :
    exec (.hdrLeaf v) s = continueHeader (takeLeaf v s) := by
  change execHdrLeaf v s = _
  rw [execHdrLeaf, hrun]

/-- Settles O48: the field reaching the check is compared with `MAGIC`. -/
theorem magicFieldResult : Obligations.MagicFieldResult := by
  intro s m hrun
  change execMagicWord m s = _
  rw [execMagicWord, hrun]
  unfold checkMagic
  by_cases hm : m = s.cfg.magic
  · rw [if_pos hm, decide_eq_true hm, require_true]
    rfl
  · rw [if_neg hm, decide_eq_false hm, require_false, finish_raised]

/-- Settles O49: the capacity test decides between the error entry and a node that waits. -/
theorem internalRecordResult : Obligations.InternalRecordResult := by
  intro s hrun
  rw [exec_hdrInternal hrun]
  by_cases hcap : s.nodeCount = 513#10
  · rw [if_pos hcap, takeInternal_full hcap]
    rfl
  · rw [if_neg hcap, takeInternal_room hcap, continueHeader_pending rfl]
    rfl

/-- Settles O50: the capacity test comes before the test of the symbol. -/
theorem reservedLeafRecordRaises : Obligations.ReservedLeafRecordRaises := by
  intro s v hrun hv
  rw [exec_hdrLeaf v hrun]
  by_cases hcap : s.nodeCount = 513#10
  · rw [if_pos hcap, takeLeaf_full v hcap]
    rfl
  · rw [if_neg hcap, takeLeaf_reserved hcap hv]
    rfl

end Sys2Proof.Machine
end

section
/-!
`STATUS`, `ERR`, the error entry and single writes of the sink (`10_state.md` R25, R26, `60_exceptions.md` R257,
`20_memory.md` R67), and the refusal of a count pass (`70_reset_and_hazards.md` R298).
-/

namespace Sys2Proof.Machine

/-! ### `STATUS` and `ERR` -/

/-- `STATUS` from the flags and the codes of its two wide fields (R25). -/
def statusWord (closed code freq : Bool) (tree run : BitVec 2) : BitVec 8 :=
  0#1 ++ BitVec.ofBool closed ++ BitVec.ofBool code ++ tree ++ BitVec.ofBool freq ++ run

theorem status_eq_statusWord (s : State) :
    s.status = statusWord s.snkClosed s.codeValid s.freqValid (treeCode s.treeState) (runCode s.run) := rfl

/-- Where each part of `STATUS` stands (R25). -/
theorem statusWord_fields : ∀ (closed code freq : Bool) (tree run : BitVec 2),
    (statusWord closed code freq tree run).extractLsb' 0 2 = run ∧
      (statusWord closed code freq tree run).getLsbD 2 = freq ∧
      (statusWord closed code freq tree run).extractLsb' 3 2 = tree ∧
      (statusWord closed code freq tree run).getLsbD 5 = code ∧
      (statusWord closed code freq tree run).getLsbD 6 = closed ∧
      (statusWord closed code freq tree run).getLsbD 7 = false := by decide

/-- Where the reason stands in `ERR` (R26). -/
theorem errWord_fields (s : State) :
    s.errWord.extractLsb' 4 4 = 0#4 ∧ s.errWord.extractLsb' 0 4 = reasonCode s.err := by
  have hfields : ∀ r : BitVec 4, (0#4 ++ r).extractLsb' 4 4 = 0#4 ∧ (0#4 ++ r).extractLsb' 0 4 = r := by decide
  exact hfields (reasonCode s.err)

/-- Settles O14: each field of the two words is the flag or the code of R23, R25 and R250. -/
theorem statusAndErrLayout : Obligations.StatusAndErrLayout := by
  intro s
  obtain ⟨hrun, hfreq, htree, hcode, hclosed, hzero⟩ :=
    statusWord_fields s.snkClosed s.codeValid s.freqValid (treeCode s.treeState) (runCode s.run)
  obtain ⟨herr, hreason⟩ := errWord_fields s
  rw [← status_eq_statusWord] at hrun hfreq htree hcode hclosed hzero
  rw [hrun, htree, hreason]
  refine ⟨⟨fun h => ?_, fun ⟨r, h⟩ => ?_, fun h => ?_⟩, hfreq, ⟨fun h => ?_, fun h => ?_, fun h => ?_⟩, hcode, hclosed,
    hzero, herr, fun h => ?_, fun h => ?_, fun h => ?_, fun h => ?_, fun h => ?_, fun h => ?_, fun h => ?_, fun h => ?_,
    fun h => ?_, fun h => ?_⟩
  all_goals rw [h]; rfl

/-! ### The error entry and writes -/

theorem padding_length_lt (n : Nat) : (padding n).length < 8 := by
  rw [padding_length]
  omega

theorem eq_false_of_mem_padding {n : Nat} {b : Bool} (h : b ∈ padding n) : b = false := List.eq_of_mem_replicate h

/-- Settles O15: an open sink is padded, packed and closed, and both sinks get the reason. -/
theorem errorEntryEffect : Obligations.ErrorEntryEffect := fun _ s =>
  ⟨errorEntry_closed, fun hopen => ⟨padding s.snkBits.length, _, errorEntry_open hopen,
    flatMap_packBytes_padded s.snkBits, padding_length_lt _, fun _ => eq_false_of_mem_padding⟩⟩

theorem bits_getD {w v j : Nat} (h : j < w) : (bits w v).getD j false = v.testBit (w - 1 - j) := by
  rw [List.getD_eq_getElem _ _ (by rwa [bits_length]), bits_getElem]

/-- Settles O19: what is appended is the field that holds the value. -/
theorem writeBitsResult : Obligations.WriteBitsResult := fun _ w v =>
  ⟨bits w v, rfl, bits_length w v, fun _ => bits_getD, val_bits_of_lt⟩

/-! ### The refusal of R298 -/

theorem fcountBody_overlong {s : State} (h : s.cfg.maxLen < s.src.length) : fcountBody s = .refused .inputTooLong :=
  if_pos h

/-- `COMPRESS` begins with the count pass, whose refusal ends it (R230, R298). -/
theorem compressBody_overlong {s : State} (h : s.cfg.maxLen < s.src.length) :
    compressBody s = .refused .inputTooLong := by
  simp only [compressBody, fcountBody_overlong h, andThen_refused]

/-- Settles O21: the count pass is the first line of both commands. -/
theorem overlongSourceIsRefused : Obligations.OverlongSourceIsRefused := by
  intro s hrun hlen
  refine ⟨(issue_idle hrun).trans ?_, (issue_idle hrun).trans ?_⟩
  · rw [fcountBody_overlong hlen, finish_refused]
  · rw [compressBody_overlong hlen, finish_refused]

end Sys2Proof.Machine
end

section
/-!
`CGEN`, `WHDR` and `ENCODE` from any idle state (`42_tree_codec.md` R150 to R154, `44_bitstream_encoder.md` R192): a tree in
node memory has at most 257 leaves, so that no walk over it is too deep.
-/

namespace Sys2Proof.Machine

/-- The entries of a stored tree are entries of node memory (R31). -/
theorem lt_of_mem_indices {t : ITree} {m : Vector Node 513} (hstored : t.storedIn m = true) {k : Nat}
    (hk : k ∈ t.indices) : k < 513 := by
  induction t with
  | leaf i v =>
    obtain rfl := List.mem_singleton.mp hk
    rw [ITree.storedIn] at hstored
    split at hstored
    · cases hstored
    next n hn => exact (Vector.getElem?_eq_some_iff.mp hn).1
  | node i l r hl hr =>
    rw [ITree.storedIn] at hstored
    split at hstored
    · cases hstored
    next n hn =>
      simp only [Bool.and_eq_true] at hstored
      obtain ⟨-, -, -, hstoredL, hstoredR⟩ := hstored
      rw [ITree.indices, List.mem_cons, List.mem_append] at hk
      rcases hk with rfl | hk | hk
      · exact (Vector.getElem?_eq_some_iff.mp hn).1
      · exact hl hstoredL hk
      · exact hr hstoredR hk

/-- Node memory has room for 257 leaves: 2 n − 1 distinct entries of 513 (R30, R34). -/
theorem HoldsTree.leaves_le {s : State} {t : ITree} (h : HoldsTree s t) : t.shape.leaves ≤ 257 := by
  obtain ⟨-, hstored, hnodup, -⟩ := h
  have hsub : t.indices ⊆ List.range 513 := fun k hk => List.mem_range.mpr (lt_of_mem_indices hstored hk)
  have hle := (hnodup.subperm hsub).length_le
  have hlen := t.indices_length
  rw [List.length_range] at hle
  omega

/-- Settles O27: the walk writes the paths of the tree into an empty code table. -/
theorem cgenResult : Obligations.CgenResult := by
  intro s t hrun hbuilt htree hnodup
  obtain ⟨has, len, value, tick, hexec, hcodes⟩ := exec_cgen_codesOf hrun hbuilt htree hnodup
  exact ⟨_, hexec, rfl, hcodes⟩

/-- Settles O29: the walk writes the header of the tree, whose length R94 gives. -/
theorem whdrResult : Obligations.WhdrResult := fun _ t hrun hvalid hopen htree =>
  ⟨exec_whdr_open hrun hvalid hopen htree htree.leaves_le, t.shape.ser_length⟩

/-- Settles O37: the loop writes the codes of the whole bytes left, and the last line the sentinel's. -/
theorem encodeResult : Obligations.EncodeResult := fun _ hrun hcodes hopen hhas =>
  exec_encode_all hrun hcodes hopen hhas

end Sys2Proof.Machine
end

section
/-!
`DECODE` on codes ended by the sentinel's, with the position where it stops (`45_bitstream_decoder.md` R210, R212).
-/

namespace Sys2Proof.Machine

/-- The codes of data symbols and then the sentinel's, in a tree with an internal root: the bytes are written and the
position is just after the sentinel's code (R212). -/
theorem exec_decode_codes {s : State} {t : ITree} {cs : List (SymField × List Bool)} {e rest : List Bool}
    (hrun : s.run = .idle) (hvalid : s.treeState ≠ .none) (hopen : s.snkClosed = false) (htree : HoldsTree s t)
    (hleaves : 2 ≤ t.shape.leaves) (hcs : ∀ c ∈ cs, c ∈ t.shape.paths ∧ c.1 ≠ Config.pseudoEof)
    (he : (Config.pseudoEof, e) ∈ t.shape.paths)
    (hsrc : s.srcBits.drop s.srcPos = cs.flatMap Prod.snd ++ e ++ rest) :
    ∃ cur, exec .decode s = .next { s with
      srcPos := s.srcPos + (cs.flatMap Prod.snd ++ e).length
      snkBits := s.snkBits ++ (bytesOfCodes cs).flatMap byteBits
      cur := cur } := by
  obtain ⟨htop, hstored, -, -, -, hok⟩ := htree
  cases t with
  | leaf i x => exact absurd (show 2 ≤ 1 from hleaves) (by decide)
  | node i l r =>
    obtain ⟨⟨n, hn, hinner, -⟩, -⟩ := storedIn_node hstored
    have hroot : s.node? s.root = some n := htop ▸ hn
    rw [List.append_assoc] at hsrc
    have hleft : s.srcLeft = (cs.flatMap Prod.snd).length + (e.length + rest.length) := by
      have hlen := congrArg List.length hsrc
      rwa [List.length_drop, srcBits_length, List.length_append, List.length_append] at hlen
    obtain ⟨cur, hend⟩ := decodeAt_path (v := Config.pseudoEof)
      (s := { s.appendBits ((bytesOfCodes cs).flatMap byteBits) with srcPos := s.srcPos + (cs.flatMap Prod.snd).length })
      rest.length hstored he (drop_srcPos_add hsrc)
    rw [htop, decodeLeaf, if_pos rfl] at hend
    refine ⟨cur, (issue_idle hrun).trans ?_⟩
    rw [decodeBody_of_root_internal hvalid hopen hroot hinner, hleft,
      decodeAt_codes _ htop hroot hinner hstored hok hcs hsrc, hend, List.length_append, ← Nat.add_assoc]
    exact finish_ok hrun

/-- Settles O40: the codes lead back to the root, and the sentinel's code ends the loop at its leaf. -/
theorem decodeResult : Obligations.DecodeResult := by
  intro s t cs e rest hrun hvalid hopen htree hleaves hcs he hsrc
  obtain ⟨cur, hexec⟩ := exec_decode_codes hrun hvalid hopen htree hleaves hcs he hsrc
  exact ⟨cur, bytesOfCodes cs, hexec, bytesOfCodes_map_toNat (symbolsOk_of_holdsTree htree) hcs⟩

end Sys2Proof.Machine
end

section
/-!
`RHDR` on a complete header, with what it leaves alone (`43_tree_decoder.md` R171, R173): the entries of node memory that no
record of the header has numbered keep their contents.
-/

namespace Sys2Proof.Machine

/-- The node indices of the calls that wait. -/
def pendingIndices (l : List Pending) : List Nat := l.map fun c => c.idx.toNat

/-- What a return to the waiting calls writes: the entries of some of them, and no other (R171). -/
theorem returnNode_frame {l : List Pending} {i : NodeIdx} {s u : State} (h : returnNode l i s = .ok u) :
    u.nodeCount = s.nodeCount ∧ pendingIndices u.stack ⊆ pendingIndices l ∧
      ∀ k ∉ pendingIndices l, u.nodes[k]? = s.nodes[k]? := by
  induction l generalizing i s with
  | nil =>
    cases h
    exact ⟨rfl, List.Subset.refl _, fun _ _ => rfl⟩
  | cons c l ih =>
    obtain ⟨j, left⟩ := c
    cases left with
    | none =>
      cases h
      exact ⟨rfl, List.Subset.refl _, fun _ _ => rfl⟩
    | some x =>
      rw [returnNode] at h
      split at h
      · cases h
      next e he =>
        obtain ⟨hcount, hstack, hnodes⟩ := ih h
        refine ⟨hcount, List.subset_cons_of_subset _ hstack, fun k hk => ?_⟩
        obtain ⟨hne, hk⟩ := List.ne_and_not_mem_of_not_mem_cons hk
        rw [hnodes k hk]
        exact Vector.getElem?_set_ne e.isLt fun hek => hne (hek.symm.trans (entry?_eq_some.mp he).symm)

theorem readBits_snd {w : Nat} {s u : State} {v : Option (BitVec w)} (h : readBits w s = (v, u)) :
    ∃ p, u = { s with srcPos := p } := by
  obtain ⟨p, hp, -⟩ := readBits_state w s
  rw [h] at hp
  exact ⟨p, hp⟩

/-- A record that the reads of R171 find is one of the two, and nothing but the position has changed. -/
theorem fetchRecord_eq_instr {s u : State} {i : Instr} (h : fetchRecord s = .instr i u) :
    (∃ p, u = { s with srcPos := p }) ∧ (i = .hdrInternal ∨ ∃ v, i = .hdrLeaf v) := by
  unfold fetchRecord at h
  split at h
  · cases h
  · split at h
    · cases h
    next b s1 hread =>
      obtain ⟨p, rfl⟩ := readBits_snd hread
      split at h
      next hb =>
        cases h
        exact ⟨⟨p, rfl⟩, .inl (if_pos hb)⟩
      next hb =>
        split at h
        · cases h
        next v s2 hread' =>
          obtain ⟨p', rfl⟩ := readBits_snd hread'
          cases h
          exact ⟨⟨p', rfl⟩, .inr ⟨v, if_neg hb⟩⟩

/-- A leaf record that is returned had an entry left and holds a symbol (R171). -/
theorem takeLeaf_eq_ok {s u : State} {v : SymField} (h : takeLeaf v s = .ok u) :
    s.nodeCount ≠ BitVec.ofNat 10 Config.nodeCap ∧ ∃ e : Fin 513, s.nodeCount.toNat = e.val ∧ v.toNat ≤ 256 := by
  unfold takeLeaf at h
  split at h
  · cases h
  next hcap =>
    split at h
    · cases h
    next hv =>
      split at h
      · cases h
      next e he => exact ⟨hcap, e, entry?_eq_some.mp he, Nat.le_of_not_lt hv⟩

/-- The nodes numbered fit into node memory, and every waiting call is of one of them (R172). -/
structure Numbered (s : State) : Prop where
  count : s.nodeCount.toNat ≤ 513
  pending : ∀ k ∈ pendingIndices s.stack, k < s.nodeCount.toNat

/-- Between `s` and `u` the header reader has numbered nodes and written no entry beyond them (R173). -/
structure NumbersTo (s u : State) : Prop where
  numbered : Numbered u
  le : s.nodeCount.toNat ≤ u.nodeCount.toNat
  beyond : ∀ k, u.nodeCount.toNat ≤ k → u.nodes[k]? = s.nodes[k]?

/-- The next node index, while node memory has room (R171). -/
theorem nodeCount_succ {s : State} (h : Numbered s) (hcap : s.nodeCount ≠ BitVec.ofNat 10 Config.nodeCap) :
    s.nodeCount.toNat < 513 ∧ (s.nodeCount + 1#10).toNat = s.nodeCount.toNat + 1 := by
  have hle := h.count
  have hne : s.nodeCount.toNat ≠ 513 := fun he => hcap (BitVec.eq_of_toNat_eq he)
  refine ⟨by omega, ?_⟩
  rw [BitVec.toNat_add, BitVec.toNat_ofNat, Nat.mod_eq_of_lt (by omega)]

/-- An internal record numbers one node, which waits (R171). -/
theorem takeInternal_numbers {s u : State} (hs : Numbered s) (h : takeInternal s = .ok u) :
    NumbersTo s u ∧ u.nodeCount.toNat = s.nodeCount.toNat + 1 := by
  by_cases hcap : s.nodeCount = BitVec.ofNat 10 Config.nodeCap
  · rw [takeInternal_full hcap] at h
    cases h
  · obtain ⟨hroom, hsucc⟩ := nodeCount_succ hs hcap
    rw [takeInternal_room hcap] at h
    cases h
    refine ⟨⟨⟨hsucc.trans_le hroom, fun k hk => ?_⟩, (Nat.le_succ _).trans_eq hsucc.symm, fun _ _ => rfl⟩, hsucc⟩
    refine (?_ : k < s.nodeCount.toNat + 1).trans_eq hsucc.symm
    rcases List.mem_cons.mp hk with rfl | hk
    · exact Nat.lt_succ_self _
    · exact Nat.lt_succ_of_lt (hs.pending k hk)

/-- A leaf record numbers one node and writes its entry and those of waiting nodes (R171). -/
theorem takeLeaf_numbers {s u : State} {v : SymField} (hs : Numbered s) (h : takeLeaf v s = .ok u) :
    NumbersTo s u ∧ u.nodeCount.toNat = s.nodeCount.toNat + 1 := by
  obtain ⟨hcap, e, he, hv⟩ := takeLeaf_eq_ok h
  obtain ⟨hroom, hsucc⟩ := nodeCount_succ hs hcap
  rw [takeLeaf_symbol he hv] at h
  obtain ⟨hcount, hstack, hnodes⟩ := returnNode_frame h
  have hcount : u.nodeCount.toNat = s.nodeCount.toNat + 1 := (congrArg BitVec.toNat hcount).trans hsucc
  refine ⟨⟨⟨by omega, fun k hk => ?_⟩, by omega, fun k hk => ?_⟩, hcount⟩
  · have := hs.pending k (hstack hk)
    omega
  · rw [hnodes k fun hmem => by have := hs.pending k hmem; omega]
    exact Vector.getElem?_set_ne e.isLt (by omega)

/-- A turn that ends well numbers one node (R171). -/
theorem headerTurn_numbers {s u : State} (hs : Numbered s) (h : headerTurn s = .ok u) :
    NumbersTo s u ∧ u.nodeCount.toNat = s.nodeCount.toNat + 1 := by
  unfold headerTurn at h
  split at h
  · cases h
  next i s1 hfetch =>
    obtain ⟨⟨p, rfl⟩, hi⟩ := fetchRecord_eq_instr hfetch
    have hs' : Numbered { s with srcPos := p } := ⟨hs.count, hs.pending⟩
    rcases hi with rfl | ⟨v, rfl⟩
    · obtain ⟨hnumbers, hcount⟩ := takeInternal_numbers hs' h
      exact ⟨⟨hnumbers.numbered, hnumbers.le, hnumbers.beyond⟩, hcount⟩
    · obtain ⟨hnumbers, hcount⟩ := takeLeaf_numbers hs' h
      exact ⟨⟨hnumbers.numbered, hnumbers.le, hnumbers.beyond⟩, hcount⟩

theorem NumbersTo.refl {s : State} (h : Numbered s) : NumbersTo s s := ⟨h, Nat.le_refl _, fun _ _ => rfl⟩

theorem NumbersTo.trans {s u v : State} (h : NumbersTo s u) (h' : NumbersTo u v) : NumbersTo s v where
  numbered := h'.numbered
  le := h.le.trans h'.le
  beyond k hk := (h'.beyond k hk).trans (h.beyond k (h'.le.trans hk))

theorem headerLoop_numbers {n : Nat} {s u : State} (hs : Numbered s) (h : headerLoop n s = .ok u) : NumbersTo s u := by
  induction n generalizing s with
  | zero => cases h
  | succ n ih =>
    rw [headerLoop_succ] at h
    obtain ⟨s1, hturn, hrest⟩ := andThen_eq_ok.mp h
    obtain ⟨hnumbers, -⟩ := headerTurn_numbers hs hturn
    rw [afterRecord] at hrest
    split at hrest
    · cases hrest
      exact hnumbers
    · exact hnumbers.trans (ih hnumbers.numbered hrest)

theorem openHeader_numbered (s : State) : Numbered s.openHeader := ⟨Nat.zero_le _, fun _ hk => absurd hk List.not_mem_nil⟩

theorem openHeader_eq_headerAt (s : State) :
    s.openHeader = s.dropTree.headerAt s.srcPos 0 s.nodes s.freeTick [] := rfl

/-- `RHDR` on the header of a tree that node memory can hold: the whole next state, in which the tree is numbered in
preorder and the entries beyond it are kept (R171, R173). -/
theorem exec_rhdr_tree {s : State} {t : Shape} {rest : List Bool} (hrun : s.run = .idle) (hle : t.leaves ≤ 257)
    (hok : t.symbolsOk) (hsrc : s.srcBits.drop s.srcPos = t.ser ++ rest) :
    ∃ m tick it,
      exec .rhdr s = .next { s with
        srcPos := s.srcPos + t.ser.length, treeState := .parsed, codeValid := false, root := 0#10
        nodeCount := BitVec.ofNat 10 (2 * t.leaves - 1), nodes := m, freeTick := tick, stack := [] } ∧
      it.shape = t ∧ it.indices = List.range (2 * t.leaves - 1) ∧
      HoldsTree { s with root := 0#10, nodeCount := BitVec.ofNat 10 (2 * t.leaves - 1), nodes := m } it ∧
      ∀ k, 2 * t.leaves - 1 ≤ k → m[k]? = s.nodes[k]? := by
  have hrecords := t.records_length
  have hcount : (BitVec.ofNat 10 (2 * t.leaves - 1)).toNat = 2 * t.leaves - 1 := by
    rw [BitVec.toNat_ofNat, Nat.mod_eq_of_lt (by omega)]
  obtain ⟨m, tick, l, it, hloop, hread⟩ := headerLoop_ser (s := s.dropTree) (k := 0) (tick := s.freeTick) (m := s.nodes)
    (l := []) (513 - t.records.length) (by omega) hok hsrc
  rw [Nat.sub_add_cancel (by omega), Nat.zero_add, returnNode, andThen_ok, afterRecord_done _ rfl, hrecords,
    ← openHeader_eq_headerAt] at hloop
  have hbeyond := (headerLoop_numbers (openHeader_numbered s) hloop).beyond
  refine ⟨m, tick, it, (issue_idle hrun).trans ?_, hread.shape, ?_, ReadFrom.holdsTree (m := s.nodes) hread rfl ?_ hok,
    fun k hk => hbeyond k (hcount.trans_le hk)⟩
  · have hbody : rhdrBody s = _ := hloop
    rw [hbody]
    exact finish_ok hrun
  · rw [hread.indices, hrecords, List.range_eq_range']
  · rw [hrecords]
    exact hcount

/-- Settles O31: the loop stores the tree in preorder and writes no entry that it has not numbered. -/
theorem rhdrReadsTheTree : Obligations.RhdrReadsTheTree := by
  intro s t rest hrun hle hok hsrc
  obtain ⟨m, tick, it, hexec, hshape, hindices, htree, hbeyond⟩ := exec_rhdr_tree hrun hle hok hsrc
  have hcount : (BitVec.ofNat 10 (2 * t.leaves - 1)).toNat = 2 * t.leaves - 1 := by
    rw [BitVec.toNat_ofNat, Nat.mod_eq_of_lt (by omega)]
  exact ⟨_, it, hexec, rfl, htree, hshape, hindices.trans (congrArg List.range hcount.symm),
    fun k hk => congrArg (Option.getD · Node.blank) (hbeyond k hk)⟩

end Sys2Proof.Machine
end

section
/-!
`RHDR` on the first records of a header (`43_tree_decoder.md` R171, R172; `60_exceptions.md` R252, R254): while records are
missing a call is pending, so the loop goes on to the record that raises.
-/

namespace Sys2Proof.Machine

/-! ### The first records of a header -/

theorem wellFormed_hdrLeaf {v : SymField} : (Instr.hdrLeaf v).wellFormed = true ↔ v.toNat ≤ 256 := decide_eq_true_iff

theorem wellFormed_hdrInternal : Instr.hdrInternal.wellFormed = true := rfl

/-- The records of a header are those of symbols exactly when its tree has only symbols (R98). -/
theorem records_ok_iff (t : Shape) : RecordsOk t.records ↔ t.symbolsOk := by
  induction t with
  | leaf v =>
    simp only [RecordsOk, Shape.symbolsOk, Shape.records, Shape.syms, List.forall_mem_singleton, wellFormed_hdrLeaf]
  | node l r hl hr =>
    simp only [RecordsOk, Shape.symbolsOk] at hl hr
    simp only [RecordsOk, Shape.symbolsOk, Shape.records, Shape.syms, List.forall_mem_cons, List.forall_mem_append, hl, hr,
      wellFormed_hdrInternal, true_and]

theorem format_of_mem_records {t : Shape} {i : Instr} (h : i ∈ t.records) : i.format = .header := by
  induction t with
  | leaf v =>
    obtain rfl := List.mem_singleton.mp h
    rfl
  | node l r hl hr =>
    rw [Shape.records, List.mem_cons, List.mem_append] at h
    rcases h with rfl | h | h
    · rfl
    · exact hl h
    · exact hr h

/-- Reading the first records of a header, while records are missing and node memory has room (R171). -/
theorem headerLoop_take {t : Shape} {s : State} {pos j k tick : Nat} {m : Vector Node 513} {l : List Pending}
    {rest : List Bool} (f : Nat) (hk : k < t.records.length) (hroom : j + k ≤ 513) (hok : RecordsOk (t.records.take k))
    (hsrc : s.srcBits.drop pos = (t.records.take k).flatMap encode ++ rest) :
    ∃ m' tick' l', headerLoop (f + k) (s.headerAt pos j m tick l) =
      headerLoop f (s.headerAt (pos + ((t.records.take k).flatMap encode).length) (j + k) m' tick' l') := by
  induction t generalizing pos j k tick m l f rest with
  | leaf v =>
    obtain rfl : k = 0 := Nat.lt_one_iff.mp hk
    exact ⟨m, tick, l, rfl⟩
  | node tl tr ihl ihr =>
    cases k with
    | zero => exact ⟨m, tick, l, rfl⟩
    | succ k =>
      have hj : j < 513 := by omega
      lift j to Fin 513 using hj
      simp only [Shape.records, List.length_cons, List.length_append] at hk
      rw [Shape.records, List.take_succ_cons] at hok hsrc ⊢
      rw [List.flatMap_cons] at hsrc ⊢
      obtain ⟨-, hok⟩ := List.forall_mem_cons.mp hok
      rw [← Nat.add_assoc, headerLoop_internal _ hsrc]
      have hsrc : s.srcBits.drop (pos + 1) = ((tl.records ++ tr.records).take k).flatMap encode ++ rest :=
        drop_srcPos_add (s := { s with srcPos := pos }) (l := [false]) hsrc
      rw [show pos + (encode .hdrInternal ++ ((tl.records ++ tr.records).take k).flatMap encode).length =
        pos + 1 + (((tl.records ++ tr.records).take k).flatMap encode).length by
          rw [List.length_append, ← Nat.add_assoc]; rfl, show j.val + (k + 1) = j.val + 1 + k by omega]
      rcases Nat.lt_or_ge k tl.records.length with hkl | hkl
      · rw [List.take_append_of_le_length hkl.le] at hok hsrc ⊢
        exact ihl f hkl (by omega) hok hsrc
      · obtain ⟨k, rfl⟩ := Nat.exists_eq_add_of_le hkl
        rw [List.take_length_add_append] at hok hsrc ⊢
        obtain ⟨hokL, hokR⟩ := List.forall_mem_append.mp hok
        rw [List.flatMap_append, ← tl.ser_eq_records] at hsrc ⊢
        rw [List.append_assoc] at hsrc
        obtain ⟨m₁, tick₁, l₁, il, hleft, -⟩ := headerLoop_ser (k := j + 1) (m := m) (tick := tick)
          (l := ⟨BitVec.ofNat 10 j, none⟩ :: l) (f + k) (by omega) ((records_ok_iff tl).mp hokL) hsrc
        have hsrc : s.srcBits.drop (pos + 1 + tl.ser.length) = _ :=
          drop_srcPos_add (s := { s with srcPos := pos + 1 }) hsrc
        obtain ⟨m₂, tick₂, l₂, hright⟩ := ihr (j := j + 1 + tl.records.length) (k := k) (m := m₁) (tick := tick₁)
          (l := ⟨BitVec.ofNat 10 j, some (BitVec.ofNat 10 (j + 1))⟩ :: l) f (by omega) (by omega) hokR hsrc
        refine ⟨m₂, tick₂, l₂, ?_⟩
        rw [Nat.add_comm tl.records.length, ← Nat.add_assoc f, hleft, returnNode_left, List.length_append,
          show pos + 1 + (tl.ser.length + ((tr.records.take k).flatMap encode).length) =
            pos + 1 + tl.ser.length + ((tr.records.take k).flatMap encode).length by omega,
          show j.val + 1 + (k + tl.records.length) = j.val + 1 + tl.records.length + k by omega]
        exact hright

/-- The state of the header reader when it has read the first `k` records of a header (R171). -/
theorem rhdrBody_take {s : State} {t : Shape} {k : Nat} {rest : List Bool} (hk : k < t.records.length) (hroom : k ≤ 513)
    (hok : RecordsOk (t.records.take k)) (hsrc : s.srcBits.drop s.srcPos = (t.records.take k).flatMap encode ++ rest) :
    ∃ m tick l, rhdrBody s = headerLoop (513 - k)
      (s.dropTree.headerAt (s.srcPos + ((t.records.take k).flatMap encode).length) k m tick l) := by
  obtain ⟨m, tick, l, hloop⟩ := headerLoop_take (s := s.dropTree) (pos := s.srcPos) (j := 0) (m := s.nodes)
    (tick := s.freeTick) (l := []) (513 - k) hk (by omega) hok hsrc
  rw [Nat.sub_add_cancel hroom, Nat.zero_add, ← openHeader_eq_headerAt] at hloop
  exact ⟨m, tick, l, hloop⟩

theorem headerTurn_of_raised {s u : State} {why : Reason} (h : fetchRecord s = .raised why u) :
    headerTurn s = .raised why u := by
  rw [headerTurn, h]

theorem headerTurn_of_instr {s u : State} {i : Instr} (h : fetchRecord s = .instr i u) :
    headerTurn s = takeRecord i u := by
  rw [headerTurn, h]

/-- A turn that raises ends the loop, while node memory has room (R171). -/
theorem headerLoop_of_raised {f : Nat} {s u : State} {why : Reason} (hf : 0 < f) (h : headerTurn s = .raised why u) :
    headerLoop f s = .raised why u := by
  obtain ⟨f, rfl⟩ := Nat.exists_eq_add_of_le' hf
  rw [headerLoop_succ, h, andThen_raised]

/-! ### A source that ends too early -/

/-- The node count that a record cut short leaves: a leaf has been numbered when its discriminator was read (R171). -/
def countAfterPart (part : List Bool) (n : NodeIdx) : NodeIdx := if part = [] then n else n + 1#10

theorem prefix_leaf_cases {v : SymField} {part : List Bool} (hpre : part <+: encode (.hdrLeaf v))
    (hne : part ≠ encode (.hdrLeaf v)) : part = [] ∨ ∃ q, part = true :: q ∧ q.length < 9 := by
  cases part with
  | nil => exact .inl rfl
  | cons b q =>
    obtain ⟨rfl, hq⟩ := List.cons_prefix_cons.mp hpre
    refine .inr ⟨q, rfl, Nat.lt_of_not_le fun hlen => hne ?_⟩
    rw [hq.eq_of_length_le (by rwa [bits_length])]
    rfl

theorem prefix_internal {part : List Bool} (hpre : part <+: encode .hdrInternal) (hne : part ≠ encode .hdrInternal) :
    part = [] := by
  cases part with
  | nil => rfl
  | cons b q =>
    obtain ⟨rfl, hq⟩ := List.cons_prefix_cons.mp hpre
    exact absurd (by rw [List.prefix_nil.mp hq]; rfl) hne

/-- With no bit left the read of the discriminator answers `EOS` (R252). -/
theorem fetchRecord_eos {s : State} (hcap : s.nodeCount ≠ BitVec.ofNat 10 Config.nodeCap)
    (hsrc : s.srcBits.drop s.srcPos = []) :
    fetchRecord s = .raised .hdrTruncated { s with srcPos := s.srcEnd } := by
  have hread := readBits_of_length_lt (w := 1) (s := s) (by rw [hsrc]; exact Nat.one_pos)
  simp only [fetchRecord, if_neg hcap, hread]

/-- A leaf record cut short in its symbol field has been numbered (R171, R252). -/
theorem fetchRecord_leaf_truncated {s : State} {q : List Bool} (hcap : s.nodeCount ≠ BitVec.ofNat 10 Config.nodeCap)
    (hq : q.length < 9) (hsrc : s.srcBits.drop s.srcPos = true :: q) :
    fetchRecord s = .raised .hdrTruncated { s with srcPos := s.srcEnd, nodeCount := s.nodeCount + 1#10 } := by
  have hread := readBits_field (m := 1#1) Nat.one_pos hsrc
  have hrest : s.srcBits.drop (s.srcPos + 1) = q := drop_srcPos_add (l := [true]) hsrc
  have hread' := readBits_of_length_lt (w := 9) (s := { s with srcPos := s.srcPos + 1 }) (hrest.symm ▸ hq)
  simp only [fetchRecord, if_neg hcap, hread, hread', show ¬ 1#1 = 0#1 by decide, if_false]
  rfl

/-- A record cut short raises `HDR_TRUNCATED` at the end of the source (R252). -/
theorem fetchRecord_truncated {s : State} {i : Instr} {part : List Bool} (hi : i.format = .header)
    (hcap : s.nodeCount ≠ BitVec.ofNat 10 Config.nodeCap) (hpre : part <+: encode i) (hne : part ≠ encode i)
    (hsrc : s.srcBits.drop s.srcPos = part) :
    fetchRecord s =
      .raised .hdrTruncated { s with srcPos := s.srcEnd, nodeCount := countAfterPart part s.nodeCount } := by
  cases i with
  | hdrInternal =>
    obtain rfl := prefix_internal hpre hne
    exact fetchRecord_eos hcap hsrc
  | hdrLeaf v =>
    obtain rfl | ⟨q, rfl, hq⟩ := prefix_leaf_cases hpre hne
    · exact fetchRecord_eos hcap hsrc
    · exact fetchRecord_leaf_truncated hcap hq hsrc
  | _ => cases hi

theorem countAfterPart_ofNat (part : List Bool) (k : Nat) :
    countAfterPart part (BitVec.ofNat 10 k) = BitVec.ofNat 10 (if part = [] then k else k + 1) := by
  unfold countAfterPart
  split
  · rfl
  · exact ofNat_nodeIdx_succ k

/-- Settles O32: the first `k` records leave a call pending, and the reads of the next one answer `EOS`. -/
theorem rhdrTruncated : Obligations.RhdrTruncated := by
  intro s t k i part hrun hroom hi hok hpre hne hsrc
  obtain ⟨hk, rfl⟩ := List.getElem?_eq_some_iff.mp hi
  obtain ⟨m, tick, l, hbody⟩ := rhdrBody_take hk hroom.le hok hsrc
  have hturn := headerTurn_of_raised (fetchRecord_truncated
    (s := s.dropTree.headerAt (s.srcPos + ((t.records.take k).flatMap encode).length) k m tick l)
    (format_of_mem_records (List.getElem_mem hk)) (nodeCount_ne_cap (k := ⟨k, hroom⟩) rfl) hpre hne (drop_srcPos_add hsrc))
  refine ⟨_, (issue_idle hrun).trans (congrArg finish (hbody.trans (headerLoop_of_raised (by omega) hturn))), ?_⟩
  rw [← countAfterPart_ofNat]
  rfl

/-! ### A reserved symbol -/

/-- Settles O33: the first `k` records leave a call pending, and the next one is numbered and raises. -/
theorem rhdrBadSymbol : Obligations.RhdrBadSymbol := by
  intro s t k y rest hrun hroom hi hy hok hsrc
  obtain ⟨hk, -⟩ := List.getElem?_eq_some_iff.mp hi
  rw [List.append_assoc] at hsrc
  obtain ⟨m, tick, l, hbody⟩ := rhdrBody_take hk hroom.le hok hsrc
  have hcap := nodeCount_ne_cap (k := ⟨k, hroom⟩)
    (s := s.dropTree.headerAt (s.srcPos + ((t.records.take k).flatMap encode).length) k m tick l) rfl
  have hturn := (headerTurn_of_instr (fetchRecord_leaf hcap (drop_srcPos_add hsrc))).trans (takeLeaf_reserved hcap hy)
  refine ⟨_, (issue_idle hrun).trans (congrArg finish (hbody.trans (headerLoop_of_raised (by omega) hturn))), ?_⟩
  rw [← ofNat_nodeIdx_succ]
  rfl

/-! ### Too many nodes -/

/-- A tree whose header begins with `n` internal records. -/
def leftComb : Nat → Shape
  | 0 => .leaf Config.pseudoEof
  | n + 1 => .node (leftComb n) (.leaf Config.pseudoEof)

theorem leftComb_records (n : Nat) : ∃ l, l ≠ [] ∧ (leftComb n).records = List.replicate n .hdrInternal ++ l := by
  induction n with
  | zero => exact ⟨_, List.cons_ne_nil _ _, rfl⟩
  | succ n ih =>
    obtain ⟨l, hl, hrecords⟩ := ih
    refine ⟨l ++ [.hdrLeaf Config.pseudoEof], by simp, ?_⟩
    rw [leftComb, Shape.records, hrecords, List.append_assoc, List.replicate_succ]
    rfl

theorem flatMap_encode_internal (n : Nat) : (List.replicate n Instr.hdrInternal).flatMap encode = List.replicate n false := by
  induction n with
  | zero => rfl
  | succ n ih => rw [List.replicate_succ, List.flatMap_cons, ih, List.replicate_succ]; rfl

/-- `RHDR` with 513 records read and the header not complete (R172). -/
theorem exec_rhdr_tooLarge {s : State} {t : Shape} {rest : List Bool} (hrun : s.run = .idle)
    (hlen : 513 < t.records.length) (hok : RecordsOk (t.records.take 513))
    (hsrc : s.srcBits.drop s.srcPos = (t.records.take 513).flatMap encode ++ rest) :
    ∃ v : State, exec .rhdr s = .next (errorEntry .treeTooLarge v) ∧
      v = { s with
        srcPos := s.srcPos + ((t.records.take 513).flatMap encode).length
        treeState := .none, codeValid := false, nodeCount := 513#10
        nodes := v.nodes, freeTick := v.freeTick, stack := v.stack } := by
  obtain ⟨m, tick, l, hbody⟩ := rhdrBody_take hlen (Nat.le_refl 513) hok hsrc
  exact ⟨_, (issue_idle hrun).trans (congrArg finish hbody), rfl⟩

/-- Settles O34: the loop has no turn left after 513 records; 513 zero bits are those of a comb. -/
theorem rhdrTreeTooLarge : Obligations.RhdrTreeTooLarge := by
  refine fun s rest hrun => ⟨fun t => exec_rhdr_tooLarge hrun, fun hsrc => ?_⟩
  obtain ⟨l, hl, hrecords⟩ := leftComb_records 513
  have htake : (leftComb 513).records.take 513 = List.replicate 513 .hdrInternal := by
    rw [hrecords, List.take_left' List.length_replicate]
  have hlen : 513 < (leftComb 513).records.length := by
    rw [hrecords, List.length_append, List.length_replicate]
    exact Nat.lt_add_of_pos_right (List.length_pos_of_ne_nil hl)
  have hok : RecordsOk ((leftComb 513).records.take 513) := by
    rw [htake]
    exact fun i hi => (List.eq_of_mem_replicate hi) ▸ wellFormed_hdrInternal
  have hexec := exec_rhdr_tooLarge (t := leftComb 513) (rest := rest) hrun hlen hok (by rw [htake, flatMap_encode_internal, hsrc])
  rwa [htake, flatMap_encode_internal, List.length_replicate] at hexec

end Sys2Proof.Machine
end

section
/-!
`RHDR` on every source (`43_tree_decoder.md` R171 to R173): the bits are those of a complete header or of one cut short, and
the first record that raises, if there is one, decides how the command ends.
-/

namespace Sys2Proof.Machine

/-- The bits `l` hold the first `k` records of the header of `t` and then the next one cut short (R92, R252). -/
def HeaderCut (l : List Bool) (t : Shape) (k : Nat) : Prop :=
  ∃ i part, t.records[k]? = some i ∧ part <+: encode i ∧ part ≠ encode i ∧
    l = (t.records.take k).flatMap encode ++ part

theorem HeaderCut.lt {l : List Bool} {t : Shape} {k : Nat} (h : HeaderCut l t k) : k < t.records.length := by
  obtain ⟨i, -, hi, -⟩ := h
  exact (List.getElem?_eq_some_iff.mp hi).1

/-- A header cut short in its left subtree is cut short, whatever was to follow. -/
theorem HeaderCut.left {l : List Bool} {t : Shape} {k : Nat} (h : HeaderCut l t k) (r : Shape) :
    HeaderCut (false :: l) (.node t r) (k + 1) := by
  have hk := h.lt
  obtain ⟨i, part, hi, hpre, hne, rfl⟩ := h
  refine ⟨i, part, ?_, hpre, hne, ?_⟩
  · rw [Shape.records, List.getElem?_cons_succ, List.getElem?_append_left hk, hi]
  · rw [Shape.records, List.take_succ_cons, List.take_append_of_le_length hk.le]
    rfl

/-- A header cut short in its right subtree, after a complete left one. -/
theorem HeaderCut.right {l : List Bool} {t : Shape} {k : Nat} (h : HeaderCut l t k) (tl : Shape) :
    HeaderCut (false :: (tl.ser ++ l)) (.node tl t) (tl.records.length + k + 1) := by
  obtain ⟨i, part, hi, hpre, hne, rfl⟩ := h
  refine ⟨i, part, ?_, hpre, hne, ?_⟩
  · rw [Shape.records, List.getElem?_cons_succ, List.getElem?_append_right (Nat.le_add_right _ _),
      Nat.add_sub_cancel_left, hi]
  · rw [Shape.records, List.take_succ_cons, List.take_length_add_append, List.flatMap_cons, List.flatMap_append,
      ← tl.ser_eq_records, List.append_assoc, List.append_assoc]
    rfl

/-- A leaf record cut short, or with nothing of it there, is a header cut short. -/
theorem headerCut_leaf {l : List Bool} {v : SymField} (hpre : l <+: encode (.hdrLeaf v)) (hne : l ≠ encode (.hdrLeaf v)) :
    HeaderCut l (.leaf v) 0 := ⟨.hdrLeaf v, l, rfl, hpre, hne, rfl⟩

/-- Fewer than nine bits are the beginning of a symbol field. -/
theorem exists_prefix_bits {q : List Bool} (hq : q.length < 9) : ∃ v : SymField, q <+: bits 9 v.toNat := by
  have hlen : (q ++ List.replicate (9 - q.length) false).length = 9 := by
    rw [List.length_append, List.length_replicate]
    omega
  exact ⟨BitVec.ofNat 9 (val (q ++ List.replicate (9 - q.length) false)), by
    rw [bits_toNat_ofNat_val hlen]
    exact List.prefix_append _ _⟩

/-- Every bit string begins with a complete header, or is one cut short (R105). -/
theorem header_or_headerCut (l : List Bool) : (∃ t rest, l = Shape.ser t ++ rest) ∨ ∃ t k, HeaderCut l t k := by
  induction hn : l.length using Nat.strong_induction_on generalizing l with
  | _ n ih =>
    match l with
    | [] => exact .inr ⟨_, 0, headerCut_leaf (v := 0#9) (List.nil_prefix) (List.cons_ne_nil _ _).symm⟩
    | false :: l =>
      rw [List.length_cons] at hn
      obtain ⟨tl, rest, rfl⟩ | ⟨tl, k, hcut⟩ := ih l.length (by omega) l rfl
      · rw [List.length_append] at hn
        obtain ⟨tr, rest, rfl⟩ | ⟨tr, k, hcut⟩ := ih rest.length (by omega) rest rfl
        · exact .inl ⟨.node tl tr, rest, by rw [Shape.ser, List.cons_append, List.append_assoc]⟩
        · exact .inr ⟨_, _, hcut.right tl⟩
      · exact .inr ⟨_, _, hcut.left (.leaf 0#9)⟩
    | true :: l =>
      by_cases hlen : l.length < 9
      · obtain ⟨v, hv⟩ := exists_prefix_bits hlen
        refine .inr ⟨_, 0, headerCut_leaf (v := v) (List.cons_prefix_cons.mpr ⟨rfl, hv⟩) fun he => ?_⟩
        have := congrArg List.length (List.tail_eq_of_cons_eq he)
        rw [bits_length] at this
        omega
      · obtain ⟨a, rest, ha, rfl⟩ := exists_append_of_length hlen
        refine .inl ⟨.leaf (BitVec.ofNat 9 (val a)), rest, ?_⟩
        rw [Shape.ser, bits_toNat_ofNat_val ha, List.cons_append]

/-- The records are those of symbols, or there is a first one with a reserved symbol (R98). -/
theorem recordsOk_or_reserved {l : List Instr} (h : ∀ i ∈ l, i.format = .header) :
    RecordsOk l ∨ ∃ (j : Nat) (y : SymField), l[j]? = some (.hdrLeaf y) ∧ 256 < y.toNat ∧ RecordsOk (l.take j) := by
  induction l with
  | nil => exact .inl fun _ hi => absurd hi List.not_mem_nil
  | cons i l ih =>
    obtain ⟨hi, hl⟩ := List.forall_mem_cons.mp h
    by_cases hwf : i.wellFormed = true
    · obtain hok | ⟨j, y, hj, hy, hok⟩ := ih hl
      · exact .inl (List.forall_mem_cons.mpr ⟨hwf, hok⟩)
      · exact .inr ⟨j + 1, y, hj, hy, List.forall_mem_cons.mpr ⟨hwf, hok⟩⟩
    · cases i with
      | hdrLeaf y =>
        exact .inr ⟨0, y, rfl, Nat.lt_of_not_le (mt wellFormed_hdrLeaf.mpr hwf), fun _ hi => absurd hi List.not_mem_nil⟩
      | hdrInternal => exact absurd wellFormed_hdrInternal hwf
      | _ => cases hi

/-- The source continues with the first `k` records of the header of `t`. -/
def State.HoldsRecords (s : State) (t : Shape) (k : Nat) : Prop :=
  ∃ rest, s.srcBits.drop s.srcPos = (t.records.take k).flatMap encode ++ rest

theorem State.HoldsRecords.mono {s : State} {t : Shape} {j k : Nat} (h : s.HoldsRecords t k) (hj : j ≤ k) :
    s.HoldsRecords t j := by
  obtain ⟨rest, h⟩ := h
  refine ⟨((t.records.take k).drop j).flatMap encode ++ rest, ?_⟩
  rw [h, ← List.append_assoc, ← List.flatMap_append, ← Nat.min_eq_left hj, ← List.take_take, Nat.min_eq_left hj,
    List.take_append_drop]

/-- `RHDR` raises a format error, with the position inside the source and nothing changed but what a header writes and the
flags of the tree (R171, R263). -/
def RhdrRaises (s : State) : Prop :=
  ∃ why pos count m tick l,
    exec .rhdr s = .next (errorEntry why { s with
      srcPos := pos, treeState := .none, codeValid := false, nodeCount := count, nodes := m, freeTick := tick
      stack := l }) ∧
    FormatError why ∧ (s.srcPos ≤ s.srcEnd → pos ≤ s.srcEnd)

/-- What stands next in the source ends inside it. -/
theorem srcPos_add_length_le {s : State} {l rest : List Bool} (h : s.srcBits.drop s.srcPos = l ++ rest)
    (hpos : s.srcPos ≤ s.srcEnd) : s.srcPos + l.length ≤ s.srcEnd := by
  have hlen := congrArg List.length h
  rw [List.length_drop, srcBits_length, List.length_append] at hlen
  omega

/-- `RHDR` on 513 records of an unfinished header (R172). -/
theorem rhdrRaises_tooLarge {s : State} {t : Shape} (hrun : s.run = .idle) (hlen : 513 < t.records.length)
    (hok : RecordsOk (t.records.take 513)) (h : s.HoldsRecords t 513) : RhdrRaises s := by
  obtain ⟨rest, hsrc⟩ := h
  obtain ⟨v, hexec, hv⟩ := exec_rhdr_tooLarge hrun hlen hok hsrc
  rw [hv] at hexec
  exact ⟨_, _, _, _, _, _, hexec, rfl, srcPos_add_length_le hsrc⟩

/-- `RHDR` on the records up to the first one with a reserved symbol (R254, or R172 when that one is too far). -/
theorem rhdrRaises_reserved {s : State} {t : Shape} {j : Nat} {y : SymField} (hrun : s.run = .idle)
    (hj : t.records[j]? = some (.hdrLeaf y)) (hy : 256 < y.toNat) (hok : RecordsOk (t.records.take j))
    (h : s.HoldsRecords t (j + 1)) : RhdrRaises s := by
  obtain ⟨hlt, hget⟩ := List.getElem?_eq_some_iff.mp hj
  rcases Nat.lt_or_ge j 513 with hroom | hroom
  · obtain ⟨rest, hsrc⟩ := h
    rw [List.take_succ_eq_append_getElem hlt, hget, List.flatMap_append, List.flatMap_singleton] at hsrc
    obtain ⟨v, hexec, hv⟩ := rhdrBadSymbol s t j y rest hrun hroom hj hy hok hsrc
    rw [hv] at hexec
    refine ⟨_, _, _, _, _, _, hexec, rfl, fun hpos => ?_⟩
    have hle := srcPos_add_length_le hsrc hpos
    rwa [List.length_append, show (encode (.hdrLeaf y)).length = 10 from Laws.EncodedLength.hdrLeaf y,
      ← Nat.add_assoc] at hle
  · exact rhdrRaises_tooLarge hrun (by omega) (fun i hi => hok i (List.take_subset_take_left _ hroom hi))
      (h.mono (by omega))

/-- `RHDR` on a source that ends inside the header (R252, unless an earlier record raises). -/
theorem rhdrRaises_cut {s : State} {t : Shape} {k : Nat} (hrun : s.run = .idle) (hok : RecordsOk (t.records.take k))
    (hcut : HeaderCut (s.srcBits.drop s.srcPos) t k) : RhdrRaises s := by
  have hlt := hcut.lt
  obtain ⟨i, part, hi, hpre, hne, hsrc⟩ := hcut
  rcases Nat.lt_or_ge k 513 with hroom | hroom
  · obtain ⟨v, hexec, hv⟩ := rhdrTruncated s t k i part hrun hroom hi hok hpre hne hsrc
    rw [hv] at hexec
    exact ⟨_, _, _, _, _, _, hexec, rfl, fun _ => Nat.le_refl _⟩
  · exact rhdrRaises_tooLarge hrun (by omega) (fun i hi => hok i (List.take_subset_take_left _ hroom hi))
      (State.HoldsRecords.mono ⟨part, hsrc⟩ hroom)

/-- A reserved symbol among the first `k` records makes `RHDR` raise (R254). -/
theorem recordsOk_or_rhdrRaises {s : State} {t : Shape} {k : Nat} (hrun : s.run = .idle) (h : s.HoldsRecords t k) :
    RecordsOk (t.records.take k) ∨ RhdrRaises s := by
  refine (recordsOk_or_reserved fun i hi => format_of_mem_records (List.mem_of_mem_take hi)).imp_right ?_
  rintro ⟨j, y, hj, hy, hok⟩
  rw [List.getElem?_take, Option.ite_none_right_eq_some] at hj
  obtain ⟨hjk, hj⟩ := hj
  rw [List.take_take, Nat.min_eq_left hjk.le] at hok
  exact rhdrRaises_reserved hrun hj hy hok (h.mono hjk)

/-- `RHDR` from `IDLE` meets the header of a tree that node memory can hold, or raises (R171 to R173). -/
theorem rhdr_cases {s : State} (hrun : s.run = .idle) :
    (∃ (t : Shape) (rest : List Bool), t.leaves ≤ 257 ∧ t.symbolsOk ∧ s.srcBits.drop s.srcPos = t.ser ++ rest) ∨
      RhdrRaises s := by
  obtain ⟨t, rest, hsrc⟩ | ⟨t, k, hcut⟩ := header_or_headerCut (s.srcBits.drop s.srcPos)
  · have hall : s.HoldsRecords t t.records.length := ⟨rest, by rw [List.take_length, ← t.ser_eq_records, hsrc]⟩
    obtain hok | hraises := recordsOk_or_rhdrRaises hrun hall
    · rw [List.take_length] at hok
      rcases Nat.lt_or_ge 513 t.records.length with hlen | hlen
      · exact .inr (rhdrRaises_tooLarge hrun hlen (fun i hi => hok i (List.mem_of_mem_take hi)) (hall.mono hlen.le))
      · have := t.records_length
        exact .inl ⟨t, rest, by omega, (records_ok_iff t).mp hok, hsrc⟩
    · exact .inr hraises
  · have hheld : s.HoldsRecords t k := by
      obtain ⟨i, part, -, -, -, hsrc⟩ := hcut
      exact ⟨part, hsrc⟩
    obtain hok | hraises := recordsOk_or_rhdrRaises hrun hheld
    · exact .inr (rhdrRaises_cut hrun hok hcut)
    · exact .inr hraises

/-- `RHDR` always ends (R171, R235). -/
theorem exists_exec_rhdr {s : State} (hrun : s.run = .idle) : ∃ u, exec .rhdr s = .next u := by
  obtain ⟨t, rest, hle, hok, hsrc⟩ | ⟨why, pos, count, m, tick, l, hexec, -⟩ := rhdr_cases hrun
  · obtain ⟨m, tick, it, hexec, -⟩ := exec_rhdr_tree hrun hle hok hsrc
    exact ⟨_, hexec⟩
  · exact ⟨_, hexec⟩

end Sys2Proof.Machine
end

section
/-!
`RHDR` as its records, one a step (`43_tree_decoder.md` R171, R235): no line of the header reader looks at `STATUS.state`, so a
step of the waiting reader is a turn of the loop.
-/

namespace Sys2Proof.Machine

/-! ### The mode is not read -/

/-- `s` in another mode. -/
def State.inMode (s : State) (r : RunState) : State := { s with run := r }

/-- The end of a body run in another mode. -/
def Ended.inMode (e : Ended) (r : RunState) : Ended :=
  match e with
  | .ok s => .ok (s.inMode r)
  | .raised why s => .raised why (s.inMode r)
  | .fault f => .fault f
  | .refused x => .refused x

/-- What the stream reader finds in another mode. -/
def Fetched.inMode (x : Fetched) (r : RunState) : Fetched :=
  match x with
  | .instr i s => .instr i (s.inMode r)
  | .raised why s => .raised why (s.inMode r)

section
variable (r : RunState)

theorem readBits_inMode (w : Nat) (s : State) :
    readBits w (s.inMode r) = ((readBits w s).1, (readBits w s).2.inMode r) := by
  by_cases h : s.srcPos + w ≤ s.srcEnd
  · rw [readBits_enough h, readBits_enough (s := s.inMode r) h]
    rfl
  · rw [readBits_short (Nat.lt_of_not_le h), readBits_short (s := s.inMode r) (Nat.lt_of_not_le h)]
    rfl

theorem fetchRecord_inMode (s : State) : fetchRecord (s.inMode r) = (fetchRecord s).inMode r := by
  by_cases hcap : s.nodeCount = BitVec.ofNat 10 Config.nodeCap
  · rw [fetchRecord, fetchRecord, if_pos hcap]
    exact if_pos hcap
  · rw [fetchRecord, fetchRecord, if_neg hcap]
    refine (if_neg hcap).trans ?_
    rw [readBits_inMode]
    rcases readBits 1 s with ⟨_ | b, s1⟩
    · rfl
    · by_cases hb : b = 0#1
      · simp only [if_pos hb]
        rfl
      · simp only [if_neg hb, readBits_inMode]
        rcases readBits 9 s1 with ⟨_ | v, s2⟩ <;> rfl

/-- A second child returned completes its parent's entry, and the parent is returned (R171). -/
theorem returnNode_of_entry {j : NodeIdx} {e : Fin 513} (x i : NodeIdx) (l : List Pending) (s : State)
    (he : entry? j = some e) :
    returnNode (⟨j, some x⟩ :: l) i s =
      returnNode l j (s.setNode e ⟨false, Config.freeSym s.freeTick, x, i, Config.freeWeight s.freeTick⟩).tick := by
  rw [returnNode, he]

theorem returnNode_of_noEntry {j : NodeIdx} (x i : NodeIdx) (l : List Pending) (s : State) (he : entry? j = none) :
    returnNode (⟨j, some x⟩ :: l) i s = .fault .noSuchNode := by
  rw [returnNode, he]

theorem returnNode_inMode (l : List Pending) (i : NodeIdx) (s : State) :
    returnNode l i (s.inMode r) = (returnNode l i s).inMode r := by
  induction l generalizing i s with
  | nil => rfl
  | cons c l ih =>
    obtain ⟨j, left⟩ := c
    cases left with
    | none => rfl
    | some x =>
      cases he : entry? j with
      | none =>
        rw [returnNode_of_noEntry x i l s he, returnNode_of_noEntry x i l (s.inMode r) he]
        rfl
      | some e =>
        rw [returnNode_of_entry x i l s he, returnNode_of_entry x i l (s.inMode r) he, ← ih]
        rfl

theorem takeInternal_inMode (s : State) : takeInternal (s.inMode r) = (takeInternal s).inMode r := by
  by_cases hcap : s.nodeCount = BitVec.ofNat 10 Config.nodeCap
  · rw [takeInternal_full hcap, takeInternal_full (s := s.inMode r) hcap]
    rfl
  · rw [takeInternal_room hcap, takeInternal_room (s := s.inMode r) hcap]
    rfl

theorem takeLeaf_of_noEntry {s : State} {v : SymField} (hcap : s.nodeCount ≠ BitVec.ofNat 10 Config.nodeCap)
    (hv : v.toNat ≤ 256) (he : entry? s.nodeCount = none) : takeLeaf v s = .fault .noSuchNode := by
  rw [takeLeaf, if_neg hcap, if_neg (Nat.not_lt.mpr hv), he]

theorem takeLeaf_inMode (v : SymField) (s : State) : takeLeaf v (s.inMode r) = (takeLeaf v s).inMode r := by
  by_cases hcap : s.nodeCount = BitVec.ofNat 10 Config.nodeCap
  · rw [takeLeaf_full v hcap, takeLeaf_full (s := s.inMode r) v hcap]
    rfl
  · rcases Nat.lt_or_ge 256 v.toNat with hv | hv
    · rw [takeLeaf_reserved hcap hv, takeLeaf_reserved (s := s.inMode r) hcap hv]
      rfl
    · cases he : entry? s.nodeCount with
      | none =>
        rw [takeLeaf_of_noEntry hcap hv he, takeLeaf_of_noEntry (s := s.inMode r) hcap hv he]
        rfl
      | some e =>
        have he := entry?_eq_some.mp he
        rw [takeLeaf_symbol he hv, takeLeaf_symbol (s := s.inMode r) he hv, ← returnNode_inMode]
        rfl

theorem takeRecord_inMode (i : Instr) (s : State) : takeRecord i (s.inMode r) = (takeRecord i s).inMode r := by
  cases i with
  | hdrLeaf v => exact takeLeaf_inMode r v s
  | hdrInternal => exact takeInternal_inMode r s
  | _ => rfl

theorem headerTurn_inMode (s : State) : headerTurn (s.inMode r) = (headerTurn s).inMode r := by
  rw [headerTurn, headerTurn, fetchRecord_inMode]
  cases fetchRecord s with
  | raised why s1 => rfl
  | instr i s1 => exact takeRecord_inMode r i s1

theorem headerLoop_inMode (n : Nat) (s : State) : headerLoop n (s.inMode r) = (headerLoop n s).inMode r := by
  induction n generalizing s with
  | zero => rfl
  | succ n ih =>
    rw [headerLoop_succ, headerLoop_succ, headerTurn_inMode]
    cases headerTurn s with
    | ok u =>
      change afterRecord n (u.inMode r) = (afterRecord n u).inMode r
      rw [afterRecord, afterRecord, ih]
      change (if u.headerDone then _ else _) = _
      split <;> rfl
    | raised why u => rfl
    | fault f => rfl
    | refused x => rfl

/-- The end of a command sets the mode itself (R25, R257). -/
theorem finish_inMode (e : Ended) : finish (e.inMode r) = finish e := by
  cases e with
  | ok s => rfl
  | raised why s => rfl
  | fault f => rfl
  | refused x => rfl

end

/-! ### Steps of the waiting reader -/

/-- A step of the waiting header reader is a turn of its loop (R171). -/
theorem step_reading {s : State} (hrun : s.run = .busy .header) (hcmds : s.cmds = []) :
    step s = continueHeader (headerTurn s) := by
  have hfetch := fetch_of_cmds_nil hcmds hrun
  rw [fetchField] at hfetch
  cases hrecord : fetchRecord s with
  | raised why u =>
    rw [hrecord] at hfetch
    rw [step_of_fetch_raised hfetch, headerTurn_of_raised hrecord]
    rfl
  | instr i u =>
    rw [hrecord] at hfetch
    rw [step_of_fetch_run hfetch, headerTurn_of_instr hrecord]
    obtain ⟨⟨p, rfl⟩, rfl | ⟨v, rfl⟩⟩ := fetchRecord_eq_instr hrecord
    · exact exec_hdrInternal hrun
    · exact exec_hdrLeaf v hrun

theorem run_succ_of_next (M : Host.Core) (k : Nat) {s u : M.State} (h : M.step s = .next u) :
    M.run (k + 1) s = M.run k u := by
  rw [Host.Core.run, h]

/-- A step that stops ends the run. -/
theorem run_succ_of_stop (M : Host.Core) (k : Nat) {s : M.State} (h : ∀ u, M.step s ≠ .next u) :
    M.run (k + 1) s = M.step s := by
  rw [Host.Core.run]
  cases hstep : M.step s with
  | next u => exact absurd hstep (h u)
  | fault f => rfl
  | refused x => rfl

/-- A state that a step leaves as it is stays for any number of steps. -/
theorem run_of_step_self (M : Host.Core) (k : Nat) {u : M.State} (h : M.step u = .next u) : M.run k u = .next u := by
  induction k with
  | zero => rfl
  | succ k ih => rw [run_succ_of_next M k h, ih]

/-- A machine with nothing to do stays as it is for any number of steps (R290). -/
theorem coreRun_waiting (k : Nat) {u : State} (hcmds : u.cmds = []) (hrun : u.run = .idle ∨ u.run = .error) :
    Host.Core.run Sys2Proof.core k u = .next u :=
  run_of_step_self Sys2Proof.core k (step_of_fetch_stay (fetch_eq_stay hcmds hrun))

theorem cmds_of_ambient_eq {s u : State} (h : u.ambient = s.ambient) : u.cmds = s.cmds := congrArg (fun a => a.2.1) h

theorem errorEntry_cmds (why : Reason) (s : State) : (errorEntry why s).cmds = s.cmds := by
  rw [errorEntry_keeps]

/-- With room for `n` more nodes, `n + 1` steps of the waiting reader end as its loop does (R171, R172). -/
theorem coreRun_reading {n : Nat} {s : State} (hrun : s.run = .busy .header) (hcmds : s.cmds = []) (hs : Numbered s)
    (hcount : s.nodeCount.toNat + n = 513) :
    Host.Core.run Sys2Proof.core (n + 1) s = finish (headerLoop n s) := by
  have hstep := step_reading hrun hcmds
  induction n generalizing s with
  | zero =>
    have hcap : s.nodeCount = BitVec.ofNat 10 Config.nodeCap := BitVec.eq_of_toNat_eq hcount
    rw [headerTurn_of_raised (show fetchRecord s = .raised .treeTooLarge s from if_pos hcap)] at hstep
    exact run_succ_of_next Sys2Proof.core 0 hstep
  | succ n ih =>
    have hkeeps := headerTurn_keeps s
    rw [headerLoop_succ]
    cases hturn : headerTurn s with
    | ok u =>
      rw [hturn] at hstep hkeeps
      have hrun' : u.run = .busy .header := (run_of_ambient_eq hkeeps).trans hrun
      have hcmds' : u.cmds = [] := (cmds_of_ambient_eq hkeeps).trans hcmds
      rw [andThen_ok]
      cases hstack : u.stack with
      | nil =>
        rw [continueHeader_done hstack] at hstep
        rw [afterRecord_done n hstack]
        exact (run_succ_of_next Sys2Proof.core _ hstep).trans (coreRun_waiting _ hcmds' (.inl rfl))
      | cons c l =>
        obtain ⟨hnumbers, hnext⟩ := headerTurn_numbers hs hturn
        rw [continueHeader_pending hstack] at hstep
        rw [afterRecord_pending n hstack]
        exact (run_succ_of_next Sys2Proof.core _ hstep).trans
          (ih hrun' hcmds' hnumbers.numbered (by omega) (step_reading hrun' hcmds'))
    | raised why u =>
      rw [hturn] at hstep hkeeps
      exact (run_succ_of_next Sys2Proof.core _ hstep).trans (coreRun_waiting _
        ((errorEntry_cmds why u).trans ((cmds_of_ambient_eq hkeeps).trans hcmds)) (.inr (errorEntry_run why u)))
    | fault f =>
      rw [hturn] at hstep
      exact (run_succ_of_stop Sys2Proof.core _ fun u hu => by cases hstep.symm.trans hu).trans hstep
    | refused x =>
      rw [hturn] at hstep
      exact (run_succ_of_stop Sys2Proof.core _ fun u hu => by cases hstep.symm.trans hu).trans hstep

/-- Settles O52: every source leads to one of the ends of `RHDR`, and 514 steps of the waiting reader are the turns of the
loop. -/
theorem rhdrEndsAndIsItsRecords : Obligations.RhdrEndsAndIsItsRecords := by
  intro s hrun
  refine ⟨exists_exec_rhdr hrun, fun hcmds => ?_⟩
  have hloop := coreRun_reading (n := 513) (s := s.openHeader.inMode (.busy .header)) rfl hcmds
    ⟨Nat.zero_le _, fun _ hk => absurd hk List.not_mem_nil⟩ rfl
  rw [headerLoop_inMode, finish_inMode] at hloop
  exact hloop.trans (issue_idle (body := rhdrBody) hrun).symm

end Sys2Proof.Machine
end

section
/-!
A leaf record reaching the header reader (`43_tree_decoder.md` R171): it completes the innermost waiting nodes that have their
left child, each with the entry completed before it as its right child.
-/

namespace Sys2Proof.Machine

/-- Node memory `m'` is `m` but for the nodes of `chain`, which are complete: each has its left child from the chain, and on
the right the entry completed before it, the first of them `i` (R171). -/
structure CompletesChain (m m' : Vector Node 513) (chain : List (NodeIdx × NodeIdx)) (i : NodeIdx) : Prop where
  entries : ∀ (n : Nat) (c : NodeIdx × NodeIdx), chain[n]? = some c → ∃ x : Node,
    m'[c.1.toNat]? = some x ∧ x.leaf = false ∧ x.left = c.2 ∧ some x.right = (i :: chain.map Prod.fst)[n]?
  others : ∀ k : NodeIdx, k ∉ chain.map Prod.fst → m'[k.toNat]? = m[k.toNat]?

theorem completesChain_nil (m : Vector Node 513) (i : NodeIdx) : CompletesChain m m [] i :=
  ⟨fun _ _ hc => (by cases hc), fun _ _ => rfl⟩

theorem CompletesChain.cons {m m' : Vector Node 513} {chain : List (NodeIdx × NodeIdx)} {j l i : NodeIdx} {e : Fin 513}
    {y : SymField} {w : Nat} (he : j.toNat = e.val) (hj : j ∉ chain.map Prod.fst)
    (h : CompletesChain (m.set e ⟨false, y, l, i, w⟩) m' chain j) : CompletesChain m m' ((j, l) :: chain) i where
  entries n c hc := by
    cases n with
    | zero =>
      cases hc
      refine ⟨⟨false, y, l, i, w⟩, ?_, rfl, rfl, rfl⟩
      rw [h.others j hj, he]
      exact Vector.getElem?_set_self e.isLt
    | succ n => exact h.entries n c hc
  others k hk := by
    obtain ⟨hne, hk⟩ := List.ne_and_not_mem_of_not_mem_cons hk
    rw [h.others k hk]
    exact Vector.getElem?_set_ne e.isLt fun hek => hne (BitVec.eq_of_toNat_eq (hek.symm.trans he.symm))

/-- An entry returned to a chain of nodes that have their left child completes them in turn (R171). -/
theorem returnNode_chain {chain : List (NodeIdx × NodeIdx)} (waiting : List Pending) {i : NodeIdx} {s : State}
    (hlt : ∀ c ∈ chain, c.1.toNat < 513) (hnodup : (chain.map Prod.fst).Nodup) :
    ∃ m tick,
      returnNode (chain.map (fun c => ⟨c.1, some c.2⟩) ++ waiting) i s =
          returnNode waiting ((chain.map Prod.fst).getLastD i) { s with nodes := m, freeTick := tick } ∧
        CompletesChain s.nodes m chain i := by
  induction chain generalizing i s with
  | nil => exact ⟨s.nodes, s.freeTick, rfl, completesChain_nil s.nodes i⟩
  | cons c chain ih =>
    obtain ⟨j, l⟩ := c
    obtain ⟨hj, hlt⟩ := List.forall_mem_cons.mp hlt
    obtain ⟨hnew, hnodup⟩ := List.nodup_cons.mp hnodup
    have he : entry? j = some ⟨j.toNat, hj⟩ := entry?_eq_some.mpr rfl
    obtain ⟨m, tick, hreturn, hchain⟩ := ih (i := j)
      (s := (s.setNode ⟨j.toNat, hj⟩ ⟨false, Config.freeSym s.freeTick, l, i, Config.freeWeight s.freeTick⟩).tick) hlt hnodup
    refine ⟨m, tick, ?_, hchain.cons rfl hnew⟩
    rw [List.map_cons, List.cons_append, returnNode_of_entry l i _ s he, List.map_cons, List.getLastD_cons]
    exact hreturn

/-- A leaf record for a chain of nodes that have their left child (R171). -/
theorem takeLeaf_chain {s : State} {v : SymField} {chain : List (NodeIdx × NodeIdx)} {waiting : List Pending}
    (hv : v.toNat ≤ 256) (hcount : s.nodeCount.toNat < 513)
    (hstack : s.stack = chain.map (fun c => ⟨c.1, some c.2⟩) ++ waiting) (hlt : ∀ c ∈ chain, c.1.toNat < 513)
    (hnodup : (s.nodeCount :: chain.map Prod.fst).Nodup) :
    ∃ m w tick,
      takeLeaf v s = returnNode waiting ((chain.map Prod.fst).getLastD s.nodeCount)
          { s with nodeCount := s.nodeCount + 1#10, nodes := m, freeTick := tick } ∧
        m[s.nodeCount.toNat]? = some ⟨true, v, Config.nil, Config.nil, w⟩ ∧
        CompletesChain (s.nodes.set s.nodeCount.toNat ⟨true, v, Config.nil, Config.nil, w⟩) m chain s.nodeCount := by
  obtain ⟨hnew, hnodup⟩ := List.nodup_cons.mp hnodup
  have hleaf := takeLeaf_symbol (s := s) (e := ⟨s.nodeCount.toNat, hcount⟩) rfl hv
  obtain ⟨m, tick, hreturn, hchain⟩ := returnNode_chain waiting (i := s.nodeCount)
    (s := (s.countNode.setNode ⟨s.nodeCount.toNat, hcount⟩
      ⟨true, v, Config.nil, Config.nil, Config.freeWeight s.freeTick⟩).tick) hlt hnodup
  refine ⟨m, Config.freeWeight s.freeTick, tick, ?_, ?_, hchain⟩
  · rw [hleaf]
    exact (congrArg (returnNode · s.nodeCount _) hstack).trans hreturn
  · rw [hchain.others _ hnew]
    exact Vector.getElem?_set_self hcount

theorem entry_of_getElem? {u : State} {k : Nat} {x : Node} (h : u.nodes[k]? = some x) : u.entry k = x := by
  rw [State.entry, h, Option.getD_some]

/-- The entries that a leaf record leaves, as the statement about it names them (R171). -/
theorem CompletesChain.entry_facts {s u : State} {v : SymField} {w : Nat} {chain : List (NodeIdx × NodeIdx)}
    (hcount : s.nodeCount.toNat < 513) (hleaf : u.nodes[s.nodeCount.toNat]? = some ⟨true, v, Config.nil, Config.nil, w⟩)
    (h : CompletesChain (s.nodes.set s.nodeCount.toNat ⟨true, v, Config.nil, Config.nil, w⟩) u.nodes chain s.nodeCount) :
    ((u.entry s.nodeCount.toNat).leaf = true ∧ (u.entry s.nodeCount.toNat).sym = v ∧
      (u.entry s.nodeCount.toNat).left = 1023#10 ∧ (u.entry s.nodeCount.toNat).right = 1023#10) ∧
    (∀ m < chain.length, ∀ c, chain[m]? = some c →
      (u.entry c.1.toNat).leaf = false ∧ (u.entry c.1.toNat).left = c.2 ∧
        some (u.entry c.1.toNat).right = (s.nodeCount :: chain.map Prod.fst)[m]?) ∧
    ∀ k : NodeIdx, k ∉ s.nodeCount :: chain.map Prod.fst → u.entry k.toNat = s.entry k.toNat := by
  refine ⟨?_, fun m _ c hc => ?_, fun k hk => ?_⟩
  · rw [entry_of_getElem? hleaf]
    exact ⟨rfl, rfl, rfl, rfl⟩
  · obtain ⟨x, hx, hfacts⟩ := h.entries m c hc
    rw [entry_of_getElem? hx]
    exact hfacts
  · obtain ⟨hne, hk⟩ := List.ne_and_not_mem_of_not_mem_cons hk
    rw [State.entry, State.entry, h.others k hk,
      Vector.getElem?_set_ne hcount fun hek => hne (BitVec.eq_of_toNat_eq hek.symm)]

/-- Settles O51: the return goes along the chain and ends at the node that waits for its left child, or at the root. -/
theorem leafRecordResult : Obligations.LeafRecordResult := by
  intro s v chain waiting hrun hv hcount hstack hlt hnodup
  obtain ⟨m, w, tick, htake, hleaf, hchain⟩ := takeLeaf_chain hv hcount hstack hlt hnodup
  have hexec := exec_hdrLeaf v hrun
  rw [htake] at hexec
  have hfacts : ∀ u : State, u.nodes = m → _ := fun u hu =>
    CompletesChain.entry_facts (s := s) (u := u) (v := v) (w := w) (chain := chain) hcount (hu ▸ hleaf) (hu ▸ hchain)
  match waiting with
  | [] =>
    obtain ⟨hnew, hcompleted, hothers⟩ := hfacts { s with
      nodeCount := s.nodeCount + 1#10, nodes := m, freeTick := tick, stack := []
      root := (chain.map Prod.fst).getLastD s.nodeCount, treeState := .parsed, run := .idle } rfl
    exact ⟨_, hnew, hcompleted, hothers, fun _ => ⟨hexec.trans (continueHeader_done rfl), rfl⟩,
      fun j rest h => by cases h⟩
  | ⟨j, none⟩ :: rest =>
    obtain ⟨hnew, hcompleted, hothers⟩ := hfacts { s with
      nodeCount := s.nodeCount + 1#10, nodes := m, freeTick := tick
      stack := ⟨j, some ((chain.map Prod.fst).getLastD s.nodeCount)⟩ :: rest } rfl
    refine ⟨_, hnew, hcompleted, hothers, fun h => (by cases h), fun j rest h => ?_⟩
    cases h
    exact ⟨hexec.trans (continueHeader_pending rfl), rfl⟩
  | ⟨j, some x⟩ :: rest =>
    obtain ⟨hnew, hcompleted, hothers⟩ := hfacts { s with nodes := m } rfl
    exact ⟨_, hnew, hcompleted, hothers, fun h => (by cases h), fun j rest h => by cases h⟩

end Sys2Proof.Machine
end

section
/-!
`TBUILD` against the textbook's greedy merge (`41_tree_builder.md` R130 to R137): the trees in the order of their tops are the
textbook's list, `extract_min()` takes the first of its least entries, and each merge goes to its end.
-/

namespace Sys2Proof.Machine

/-! ### The first of the least entries -/

theorem takeLeast_eq_none_iff {l : List (Nat × Shape)} : takeLeast l = none ↔ l = [] := by
  cases l with
  | nil => simp [takeLeast]
  | cons x rest =>
    rw [takeLeast]
    split
    · simp
    · split <;> simp

theorem mem_of_takeLeast {l others : List (Nat × Shape)} {x : Nat × Shape} (h : takeLeast l = some (x, others)) :
    x ∈ l := by
  induction l generalizing others with
  | nil => cases h
  | cons a rest ih =>
    rw [takeLeast] at h
    split at h
    · cases h
      exact List.mem_cons_self
    next y ys hrest =>
      split at h <;> cases h
      · exact List.mem_cons_of_mem a (ih hrest)
      · exact List.mem_cons_self

/-- An entry that weighs less than those before it and no more than those after it is taken first (R136). -/
theorem takeLeast_append {pre post : List (Nat × Shape)} {x : Nat × Shape} (hpre : ∀ y ∈ pre, x.1 < y.1)
    (hpost : ∀ y ∈ post, x.1 ≤ y.1) : takeLeast (pre ++ x :: post) = some (x, pre ++ post) := by
  induction pre with
  | nil =>
    rw [List.nil_append, takeLeast]
    split
    next hrest => rw [takeLeast_eq_none_iff.mp hrest, List.nil_append]
    next y ys hrest => rw [if_neg (Nat.not_lt.mpr (hpost y (mem_of_takeLeast hrest))), List.nil_append]
  | cons a pre ih =>
    obtain ⟨ha, hpre⟩ := List.forall_mem_cons.mp hpre
    rw [List.cons_append, takeLeast, ih hpre]
    exact if_pos ha

/-! ### Trees in the order of their tops -/

/-- The trees stand in the order of their top entries, the order of insertion (R133, R136). -/
abbrev Ordered (ts : List ITree) : Prop := ts.Pairwise fun a b => a.top.toNat < b.top.toNat

/-- The weight of a tree is that of its top entry (R30). -/
def State.treeWeight (s : State) (t : ITree) : Nat := s.weightOf t.top.toNat

/-- The textbook's list for trees in node memory: the weight and the shape of each (R132). -/
def State.weighted (s : State) (ts : List ITree) : List (Nat × Shape) := ts.map fun t => (s.treeWeight t, t.shape)

theorem weighted_append (s : State) (ts us : List ITree) : s.weighted (ts ++ us) = s.weighted ts ++ s.weighted us :=
  List.map_append

theorem mem_weighted {s : State} {ts : List ITree} {P : Nat → Prop} (h : ∀ t ∈ ts, P (s.treeWeight t)) :
    ∀ x ∈ s.weighted ts, P x.1 := by
  intro x hx
  obtain ⟨t, ht, rfl⟩ := List.mem_map.mp hx
  exact h t ht

/-- What `extract_min()` does on trees in order: it takes the tree that the textbook takes (R133, R136). -/
structure Extracts (s : State) (ts : List ITree) (t : ITree) (us : List ITree) : Prop where
  perm : ts.Perm (t :: us)
  sublist : us.Sublist ts
  extracted : extractMin s = some (t.top.toNat, s.pqRemove t.top.toNat)
  queued : Queued (s.pqRemove t.top.toNat) us
  textbook : takeLeast (s.weighted ts) = some ((s.treeWeight t, t.shape), s.weighted us)
  least : ∀ x ∈ us, s.treeWeight t ≤ s.treeWeight x

theorem exists_extracts {s : State} {ts : List ITree} (hq : Queued s ts) (hord : Ordered ts) (hne : ts ≠ []) :
    ∃ t us, Extracts s ts t us := by
  have hpq : s.inPq ≠ 0#513 := fun h0 => hne (List.map_eq_nil_iff.mp (hq.symm.trans (queued_nil.mpr h0)).eq_nil)
  obtain ⟨⟨i, u⟩, hmin⟩ := Option.ne_none_iff_exists'.mp (mt extractMin_eq_none_iff.mp hpq)
  obtain ⟨rfl, hmem, hleast⟩ := extractMin_spec hmin
  obtain ⟨t, ht, rfl⟩ := List.mem_map.mp (hq.mem_iff.mp hmem)
  obtain ⟨pre, post, rfl⟩ := List.append_of_mem ht
  have hkey : ∀ x ∈ pre ++ t :: post, x.top.toNat ≠ t.top.toNat → keyLt s.weightOf t.top.toNat x.top.toNat = true :=
    fun x hx => hleast _ (hq.mem_iff.mpr (List.mem_map_of_mem hx))
  obtain ⟨-, htail, hbefore⟩ := List.pairwise_append.mp hord
  have hafter := (List.pairwise_cons.mp htail).1
  have hpre : ∀ x ∈ pre, s.treeWeight t < s.treeWeight x := fun x hx => by
    have hlt := hbefore x hx t List.mem_cons_self
    have hk := keyLt_iff.mp (hkey x (List.mem_append_left _ hx) hlt.ne)
    unfold State.treeWeight
    omega
  have hpost : ∀ x ∈ post, s.treeWeight t ≤ s.treeWeight x := fun x hx => by
    have hlt := hafter x hx
    have hk := keyLt_iff.mp (hkey x (List.mem_append_right _ (List.mem_cons_of_mem t hx)) hlt.ne')
    unfold State.treeWeight
    omega
  have hperm : (pre ++ t :: post).Perm (t :: (pre ++ post)) := List.perm_middle
  refine ⟨t, pre ++ post, hperm, List.Sublist.append_left (List.sublist_cons_self t post) pre, hmin,
    Queued.remove (hq.trans (hperm.map _)), ?_, fun x hx => ?_⟩
  · rw [weighted_append, weighted_append]
    exact takeLeast_append (mem_weighted hpre) (mem_weighted hpost)
  · rcases List.mem_append.mp hx with hx | hx
    · exact (hpre x hx).le
    · exact hpost x hx

/-! ### One merge -/

/-- The top of a tree of a forest is an entry in use. -/
theorem Forest.top_lt {s : State} {n : Nat} {ts : List ITree} (h : Forest s n ts) {t : ITree} (ht : t ∈ ts) :
    t.top.toNat < n := by
  obtain ⟨l, hl⟩ := t.indices_eq_cons
  exact h.index_lt ht (hl ▸ List.mem_cons_self)

theorem treeWeight_setNode {s : State} {n : Fin 513} {t : ITree} (x : Node) (h : t.top.toNat < n) :
    (s.setNode n x).treeWeight t = s.treeWeight t := by
  rw [State.treeWeight, weightOf_setNode, if_neg (Nat.ne_of_gt h), State.treeWeight]

/-- The weights of trees depend on node memory alone. -/
theorem weighted_congr {s u : State} {ts : List ITree} (h : ∀ t ∈ ts, u.treeWeight t = s.treeWeight t) :
    u.weighted ts = s.weighted ts :=
  List.map_congr_left fun t ht => by rw [h t ht]

/-- A forest whose trees stand in the order of their tops, the last of which is the last entry in use: the trees in the
order in which `TBUILD` made them (R130, R132). -/
structure Grove (s : State) (n : Nat) (ts : List ITree) : Prop where
  forest : Forest s n ts
  ordered : Ordered ts
  last : ∀ t, ts.getLast? = some t → t.top.toNat + 1 = n

/-- A new tree whose top is the next entry goes to the end. -/
theorem grove_concat {u : State} {n : Fin 513} {ts : List ITree} {t : ITree} (h : Forest u (n + 1) (t :: ts))
    (hord : Ordered ts) (hts : ∀ x ∈ ts, x.top.toNat < n) (ht : t.top = BitVec.ofNat 10 n.val) :
    Grove u (n + 1) (ts ++ [t]) where
  forest := h.perm (List.perm_append_singleton t ts).symm
  ordered := List.pairwise_append.mpr ⟨hord, List.pairwise_singleton _ _, fun x hx y hy => by
    rw [List.mem_singleton.mp hy, ht, nodeIdx_toNat]
    exact hts x hx⟩
  last x hx := by
    rw [List.getLast?_concat] at hx
    cases hx
    rw [ht, nodeIdx_toNat]

/-- The entry that a merge of `a` and `b` writes, but for its `sym` (R132, R135). -/
def State.mergeNode (s : State) (a b : ITree) (y : SymField) : Node :=
  ⟨false, y, a.top, b.top, s.treeWeight a + s.treeWeight b⟩

/-- One turn of the merge loop on trees in order: it joins the trees that the textbook joins, in the next entry (R132). -/
structure MergeTurn (s : State) (n : Fin 513) (ts : List ITree) (a b : ITree) (us : List ITree) (u : State) : Prop where
  turn : mergeOnce n s = .ok u
  frame : BuildsFrom s u
  perm : ts.Perm (a :: b :: us)
  grove : Grove u (n + 1) (us ++ [.node (BitVec.ofNat 10 n.val) a b])
  nodes : ∃ y, u.nodes = s.nodes.set n (s.mergeNode a b y)
  textbook : ∀ k, huffman (k + 1) (s.weighted ts) =
    huffman k (s.weighted us ++ [(s.treeWeight a + s.treeWeight b, .node a.shape b.shape)])
  least : s.treeWeight a ≤ s.treeWeight b ∧ ∀ x ∈ us, s.treeWeight b ≤ s.treeWeight x

theorem exists_mergeTurn {s : State} {n : Fin 513} {ts : List ITree} (h : Grove s n ts) (hts : 2 ≤ ts.length) :
    ∃ a b us u, MergeTurn s n ts a b us u := by
  obtain ⟨a, us, ha⟩ := exists_extracts h.forest.queued h.ordered (List.ne_nil_of_length_pos (Nat.two_pos.trans_le hts))
  have hlen : us.length + 1 = ts.length := ha.perm.length_eq.symm
  have hordUs : Ordered us := h.ordered.sublist ha.sublist
  obtain ⟨b, vs, hb⟩ := exists_extracts ha.queued hordUs (List.ne_nil_of_length_pos (by omega))
  have hperm : ts.Perm (a :: b :: vs) := ha.perm.trans (hb.perm.cons a)
  have hforest := h.forest.perm hperm
  refine ⟨a, b, vs, _, mergeOnce_of_extractMin ha.extracted hb.extracted, ?_, hperm, ?_, ?_, fun k => ?_, ?_⟩
  · exact ((buildsFrom_pqRemove _ _).trans (buildsFrom_pqRemove _ _)).trans (buildsFrom_addMerge _ n _ _)
  · exact grove_concat (hforest.addMerge (u := (s.pqRemove a.top.toNat).pqRemove b.top.toNat) rfl hb.queued)
      (hordUs.sublist hb.sublist)
      (fun x hx => hforest.top_lt (List.mem_cons_of_mem _ (List.mem_cons_of_mem _ hx))) rfl
  · refine ⟨Config.freeSym s.freeTick, ?_⟩
    change s.nodes.set n ⟨false, _, BitVec.ofNat 10 a.top.toNat, BitVec.ofNat 10 b.top.toNat, _⟩ = _
    rw [ofNat_toNat_nodeIdx, ofNat_toNat_nodeIdx]
    rfl
  · have htext : takeLeast (s.weighted us) = some ((s.treeWeight b, b.shape), s.weighted vs) := hb.textbook
    rw [huffman, ha.textbook]
    simp only [htext]
  · exact ⟨ha.least b (hb.perm.mem_iff.mpr List.mem_cons_self), hb.least⟩

end Sys2Proof.Machine
end

section
/-!
`TBUILD` in full (`41_tree_builder.md` R130 to R137): what the leaf loop leaves in node memory, the invariant of the merge
loop, and the tree at its end.
-/

namespace Sys2Proof.Machine

/-! ### The leaf loop -/

/-- The present symbols, in ascending order (R122, R131). -/
def presentSymbols (freq : Vector Nat 257) : List Symbol := (List.finRange 257).filter fun y => decide (0 < freq[y])

/-- The entry of a leaf that `TBUILD` writes (R131). -/
def leafEntry (freq : Vector Nat 257) (y : Symbol) : Node :=
  ⟨true, BitVec.ofNat 9 y.val, Config.nil, Config.nil, freq[y]⟩

/-- The textbook's entry for a symbol (R131). -/
def leafItem (freq : Vector Nat 257) (y : Symbol) : Nat × Shape := (freq[y], .leaf (BitVec.ofNat 9 y.val))

theorem leafList_eq_map (freq : Vector Nat 257) : leafList freq = (presentSymbols freq).map (leafItem freq) := rfl

theorem leafList_length (freq : Vector Nat 257) : (leafList freq).length = (presentSymbols freq).length :=
  List.length_map _

theorem presentFields_eq_map (freq : Vector Nat 257) :
    presentFields freq (List.finRange 257) = (presentSymbols freq).map fun y => BitVec.ofNat 9 y.val := rfl

theorem mem_presentSymbols {freq : Vector Nat 257} {y : Symbol} : y ∈ presentSymbols freq ↔ 0 < freq[y] := by
  simp [presentSymbols]

theorem presentSymbols_pairwise (freq : Vector Nat 257) : (presentSymbols freq).Pairwise (· < ·) :=
  (List.sortedLT_finRange 257).pairwise.filter _

/-- The leaf loop passes over the symbols that are not present (R130). -/
theorem leafLoop_filter (l : List Symbol) (n : Nat) (s : State) :
    leafLoop (l.filter fun y => decide (0 < s.freq[y])) n s = leafLoop l n s := by
  induction l generalizing n s with
  | nil => rfl
  | cons y l ih =>
    by_cases hy : 0 < s.freq[y]
    · rw [List.filter_cons_of_pos (by simpa using hy), leafLoop, leafLoop, if_pos hy, if_pos hy]
      split
      · exact ih _ (s.addLeaf _ y)
      · rfl
    · rw [List.filter_cons_of_neg (by simpa using hy), ih, leafLoop, if_neg hy]

theorem treeWeight_addLeaf {s : State} {n : Fin 513} {t : ITree} (y : Symbol) (h : t.top.toNat < n) :
    (s.addLeaf n y).treeWeight t = s.treeWeight t :=
  treeWeight_setNode (leafEntry s.freq y) h

/-- What the leaf loop leaves when all symbols of its list are present: their leaves, in order, behind the trees there were
(R130, R131). -/
structure Leaves (s : State) (n : Nat) (ts : List ITree) (ys : List Symbol) (u : State) (us : List ITree) : Prop where
  grove : Grove u (n + ys.length) us
  weighted : u.weighted us = s.weighted ts ++ ys.map (leafItem s.freq)
  frame : BuildsFrom s u
  entries : ∀ (i : Nat) (y : Symbol), ys[i]? = some y → u.nodes[n + i]? = some (leafEntry s.freq y)
  below : ∀ k < n, u.nodes[k]? = s.nodes[k]?

/-- The leaf of one more symbol in front of the leaves of a list (R131). -/
theorem Leaves.cons {s u : State} {n : Fin 513} {ts us : List ITree} {y : Symbol} {ys : List Symbol}
    (hts : ∀ t ∈ ts, t.top.toNat < n)
    (h : Leaves (s.addLeaf n y) (n + 1) (ts ++ [.leaf (BitVec.ofNat 10 n.val) (BitVec.ofNat 9 y.val)]) ys u us) :
    Leaves s n ts (y :: ys) u us where
  grove := by
    have := h.grove
    rwa [Nat.add_assoc, Nat.add_comm 1] at this
  weighted := by
    have hnew : (s.addLeaf n y).treeWeight (.leaf (BitVec.ofNat 10 n.val) (BitVec.ofNat 9 y.val)) = s.freq[y] := by
      rw [State.treeWeight, ITree.top, nodeIdx_toNat]
      exact (weightOf_setNode s n (leafEntry s.freq y) n).trans (if_pos rfl)
    rw [h.weighted, weighted_append, weighted_congr fun t ht => treeWeight_addLeaf y (hts t ht), List.append_assoc]
    rw [State.weighted, State.weighted, List.map_singleton, hnew]
    rfl
  frame := (buildsFrom_addLeaf s n y).trans h.frame
  entries i z hz := by
    cases i with
    | zero =>
      cases hz
      exact (h.below n (Nat.lt_succ_self n)).trans (Vector.getElem?_set_self n.isLt)
    | succ i =>
      have := h.entries i z hz
      rwa [Nat.add_assoc, Nat.add_comm 1] at this
  below k hk := by
    rw [h.below k (Nat.lt_succ_of_lt hk)]
    exact Vector.getElem?_set_ne n.isLt (Nat.ne_of_gt hk)

theorem leafLoop_present {ys : List Symbol} {s : State} {n : Nat} {ts : List ITree} (hys : ∀ y ∈ ys, 0 < s.freq[y])
    (h : Grove s n ts) (hroom : n + ys.length ≤ 513) :
    ∃ u us, leafLoop ys n s = .ok (n + ys.length, u) ∧ Leaves s n ts ys u us := by
  induction ys generalizing s n ts with
  | nil => exact ⟨s, ts, rfl, h, by simp, .refl s, fun i y hy => (by cases hy), fun _ _ => rfl⟩
  | cons y ys ih =>
    obtain ⟨hy, hys⟩ := List.forall_mem_cons.mp hys
    rw [List.length_cons] at hroom
    have hn : n < 513 := by omega
    lift n to Fin 513 using hn
    have hts : ∀ t ∈ ts, t.top.toNat < n := fun t => h.forest.top_lt
    obtain ⟨u, us, hloop, hleaves⟩ := ih (s := s.addLeaf n y) hys
      (grove_concat (h.forest.addLeaf y) h.ordered hts rfl) (by omega)
    refine ⟨u, us, ?_, hleaves.cons hts⟩
    rw [leafLoop, if_pos hy, dif_pos n.isLt, List.length_cons, Nat.add_comm ys.length, ← Nat.add_assoc]
    exact hloop

theorem grove_nil {s : State} (hpq : s.inPq = 0#513) : Grove s 0 [] :=
  ⟨forest_nil hpq, List.Pairwise.nil, fun _ ht => by cases ht⟩

/-- The leaf loop of `TBUILD` leaves one leaf for each present symbol (R130, R131). -/
theorem leafLoop_leaves {s : State} (hpq : s.inPq = 0#513) :
    ∃ u us, leafLoop (List.finRange 257) 0 s = .ok ((leafList s.freq).length, u) ∧
      Leaves s 0 [] (presentSymbols s.freq) u us := by
  have hle := leafList_length_le s.freq
  rw [leafList_length] at hle ⊢
  obtain ⟨u, us, hloop, hleaves⟩ :=
    leafLoop_present (fun y => mem_presentSymbols.mp) (grove_nil hpq) (by omega)
  rw [presentSymbols, leafLoop_filter, Nat.zero_add] at hloop
  exact ⟨u, us, hloop, hleaves⟩

/-! ### The merge loop -/

/-- The merge loop with its next entry `n`, when the leaves are the first `leaves` entries: each entry from there on is a
merge of entries before it (R135), which weighs no less than the merges before (R137 (d)). For that the last merge weighs
no more than any two trees that are left. -/
structure Merging (s : State) (leaves n : Nat) (ts : List ITree) : Prop where
  grove : Grove s n ts
  merges : ∀ k, leaves ≤ k → k < n →
    (s.entry k).leaf = false ∧ (s.entry k).left.toNat < k ∧ (s.entry k).right.toNat < k ∧
      (s.entry k).weight = (s.entry (s.entry k).left.toNat).weight + (s.entry (s.entry k).right.toNat).weight
  rising : ∀ k, leaves ≤ k → k + 1 < n → (s.entry k).weight ≤ (s.entry (k + 1)).weight
  bound : ∃ b, (∀ t ∈ ts, b ≤ s.treeWeight t) ∧ (leaves < n → (s.entry (n - 1)).weight ≤ 2 * b)

theorem entry_set_self {s u : State} {n : Fin 513} {x : Node} (h : u.nodes = s.nodes.set n x) : u.entry n = x :=
  entry_of_getElem? (by rw [h]; exact Vector.getElem?_set_self n.isLt)

theorem entry_set_of_ne {s u : State} {n : Fin 513} {x : Node} (h : u.nodes = s.nodes.set n x) {k : Nat} (hk : k ≠ n) :
    u.entry k = s.entry k := by
  rw [State.entry, State.entry, h, Vector.getElem?_set_ne n.isLt (Ne.symm hk)]

theorem treeWeight_eq_entry (s : State) (t : ITree) : s.treeWeight t = (s.entry t.top.toNat).weight := rfl

section
variable {s u : State} {leaves : Nat} {n : Fin 513} {ts us : List ITree} {a b : ITree}

theorem mergeNode_weight (s : State) (a b : ITree) (y : SymField) :
    (s.mergeNode a b y).weight = s.treeWeight a + s.treeWeight b := rfl

theorem MergeTurn.treeWeight_of_lt (ht : MergeTurn s n ts a b us u) {t : ITree} (h : t.top.toNat < n) :
    u.treeWeight t = s.treeWeight t := by
  obtain ⟨y, hnodes⟩ := ht.nodes
  rw [treeWeight_eq_entry, entry_set_of_ne hnodes (Nat.ne_of_lt h), treeWeight_eq_entry]

/-- The entry of the merge. -/
theorem MergeTurn.entry_new (ht : MergeTurn s n ts a b us u) : ∃ y, u.entry n = s.mergeNode a b y := by
  obtain ⟨y, hnodes⟩ := ht.nodes
  exact ⟨y, entry_set_self hnodes⟩

theorem MergeTurn.entry_old (ht : MergeTurn s n ts a b us u) {k : Nat} (hk : k ≠ n) : u.entry k = s.entry k := by
  obtain ⟨y, hnodes⟩ := ht.nodes
  exact entry_set_of_ne hnodes hk

/-- The merge weighs what its two trees weigh together (R135). -/
theorem MergeTurn.treeWeight_new (ht : MergeTurn s n ts a b us u) :
    u.treeWeight (.node (BitVec.ofNat 10 n.val) a b) = s.treeWeight a + s.treeWeight b := by
  obtain ⟨y, hy⟩ := ht.entry_new
  rw [treeWeight_eq_entry, ITree.top, nodeIdx_toNat, hy, mergeNode_weight]

/-- The trees of the turn have their tops before the next entry. -/
theorem MergeTurn.tops_lt (ht : MergeTurn s n ts a b us u) (h : Grove s n ts) :
    a.top.toNat < n ∧ b.top.toNat < n ∧ ∀ t ∈ us, t.top.toNat < n := by
  have hforest := h.forest.perm ht.perm
  exact ⟨hforest.top_lt (by simp), hforest.top_lt (by simp), fun t hmem => hforest.top_lt (by simp [hmem])⟩

/-- The list of the trees after the turn is the textbook's (R132). -/
theorem MergeTurn.weighted (ht : MergeTurn s n ts a b us u) (h : Grove s n ts) :
    u.weighted (us ++ [ITree.node (BitVec.ofNat 10 n.val) a b]) =
      s.weighted us ++ [(s.treeWeight a + s.treeWeight b, .node a.shape b.shape)] := by
  obtain ⟨-, -, hus⟩ := ht.tops_lt h
  rw [weighted_append, weighted_congr fun t hmem => ht.treeWeight_of_lt (hus t hmem), State.weighted, State.weighted,
    List.map_singleton, ht.treeWeight_new, ITree.shape]

/-- A turn of the merge loop keeps its invariant (R132, R137). -/
theorem Merging.turn (h : Merging s leaves n ts) (ht : MergeTurn s n ts a b us u) :
    Merging u leaves (n + 1) (us ++ [ITree.node (BitVec.ofNat 10 n.val) a b]) := by
  obtain ⟨hatop, hbtop, hus⟩ := ht.tops_lt h.grove
  obtain ⟨y, hnew⟩ := ht.entry_new
  obtain ⟨c, hc, hlast⟩ := h.bound
  obtain ⟨hab, hb⟩ := ht.least
  have ha : c ≤ s.treeWeight a := hc a (ht.perm.mem_iff.mpr (by simp))
  refine ⟨ht.grove, fun k hk hkn => ?_, fun k hk hkn => ?_, s.treeWeight b, fun t hmem => ?_, fun _ => ?_⟩
  · rcases Nat.lt_succ_iff_lt_or_eq.mp hkn with hkn | rfl
    · obtain ⟨hinner, hleft, hright, hweight⟩ := h.merges k hk hkn
      rw [ht.entry_old hkn.ne, ht.entry_old (hleft.trans hkn).ne, ht.entry_old (hright.trans hkn).ne]
      exact ⟨hinner, hleft, hright, hweight⟩
    · rw [hnew]
      refine ⟨rfl, hatop, hbtop, ?_⟩
      rw [State.mergeNode, ht.entry_old hatop.ne, ht.entry_old hbtop.ne, treeWeight_eq_entry, treeWeight_eq_entry]
  · rcases Nat.lt_or_ge (k + 1) n with hlt | hge
    · rw [ht.entry_old (by omega), ht.entry_old (by omega)]
      exact h.rising k hk hlt
    · obtain rfl : k = n - 1 := by omega
      have := hlast (by omega)
      rw [show n.val - 1 + 1 = n by omega, hnew, mergeNode_weight, ht.entry_old (by omega)]
      omega
  · rcases List.mem_append.mp hmem with hmem | hmem
    · rw [ht.treeWeight_of_lt (hus t hmem)]
      exact hb t hmem
    · rw [List.mem_singleton.mp hmem, ht.treeWeight_new]
      exact Nat.le_add_left _ _
  · rw [Nat.add_sub_cancel, hnew, mergeNode_weight]
    omega

/-- The weight of all trees together does not change (R137). -/
theorem MergeTurn.sum_treeWeight (ht : MergeTurn s n ts a b us u) (h : Grove s n ts) :
    ((us ++ [ITree.node (BitVec.ofNat 10 n.val) a b]).map u.treeWeight).sum = (ts.map s.treeWeight).sum := by
  obtain ⟨-, -, hus⟩ := ht.tops_lt h
  have hold : us.map u.treeWeight = us.map s.treeWeight := List.map_congr_left fun t hmem => ht.treeWeight_of_lt (hus t hmem)
  rw [(ht.perm.map s.treeWeight).sum_eq, List.map_append, List.sum_append, hold, List.map_singleton, ht.treeWeight_new]
  simp only [List.map_cons, List.sum_cons, List.sum_nil]
  omega

theorem MergeTurn.syms_perm (ht : MergeTurn s n ts a b us u) :
    (forestSyms (us ++ [ITree.node (BitVec.ofNat 10 n.val) a b])).Perm (forestSyms ts) := by
  refine List.Perm.trans ?_ (ht.perm.flatMap_right fun t => t.shape.syms).symm
  simp only [forestSyms, List.flatMap_append, List.flatMap_cons, List.flatMap_nil, ITree.shape, Shape.syms,
    List.append_nil]
  exact List.perm_append_comm.trans (by rw [List.append_assoc])

end

theorem huffman_singleton (k : Nat) (x : Nat × Shape) : huffman k [x] = x.2 := by
  cases k <;> rfl

/-- How the merge loop ends: with one tree, the textbook's (R132, R137). -/
structure MergesTo (s : State) (leaves : Nat) (ts : List ITree) (m : Nat) (u : State) (t : ITree) : Prop where
  merging : Merging u leaves m [t]
  shape : ∀ k, ts.length ≤ k + 1 → t.shape = huffman k (s.weighted ts)
  weight : u.treeWeight t = (ts.map s.treeWeight).sum
  syms : t.shape.syms.Perm (forestSyms ts)
  frame : BuildsFrom s u
  below : ∀ k < leaves, u.entry k = s.entry k

theorem mergesTo_one {s : State} {leaves n : Nat} {t : ITree} (h : Merging s leaves n [t]) :
    MergesTo s leaves [t] n s t where
  merging := h
  shape k _ := (huffman_singleton k (s.treeWeight t, t.shape)).symm
  weight := by simp
  syms := by simp
  frame := .refl s
  below _ _ := rfl

/-- A turn, and what the loop does after it. -/
theorem MergesTo.cons {s u v : State} {leaves m : Nat} {n : Fin 513} {ts us : List ITree} {a b t : ITree}
    (hs : Merging s leaves n ts) (hn : leaves ≤ n) (ht : MergeTurn s n ts a b us u)
    (h : MergesTo u leaves (us ++ [ITree.node (BitVec.ofNat 10 n.val) a b]) m v t) : MergesTo s leaves ts m v t where
  merging := h.merging
  shape k hk := by
    have hlen := ht.perm.length_eq
    simp only [List.length_cons] at hlen
    obtain ⟨k, rfl⟩ := Nat.exists_eq_add_of_le' (show 1 ≤ k by omega)
    rw [ht.textbook, ← ht.weighted hs.grove]
    exact h.shape k (by rw [List.length_append, List.length_singleton]; omega)
  weight := h.weight.trans (ht.sum_treeWeight hs.grove)
  syms := h.syms.trans ht.syms_perm
  frame := ht.frame.trans h.frame
  below k hk := (h.below k hk).trans (ht.entry_old (by omega))

/-- The merge loop on trees in order (R132). -/
theorem mergeLoop_mergesTo {free leaves n : Nat} {s : State} {ts : List ITree} (h : Merging s leaves n ts) (hn : leaves ≤ n)
    (hne : ts ≠ []) (hroom : n + ts.length ≤ 514) (hfree : ts.length ≤ free + 1) :
    ∃ m u t, mergeLoop free n s = .ok (m, u) ∧ MergesTo s leaves ts m u t := by
  have hpos := List.length_pos_of_ne_nil hne
  induction free generalizing n s ts with
  | zero =>
    obtain ⟨t, rfl⟩ := List.length_eq_one_iff.mp (Nat.le_antisymm hfree hpos)
    exact ⟨n, s, t, mergeLoop_one 0 h.grove.forest, mergesTo_one h⟩
  | succ free ih =>
    by_cases hone : ts.length ≤ 1
    · obtain ⟨t, rfl⟩ := List.length_eq_one_iff.mp (Nat.le_antisymm hone hpos)
      exact ⟨n, s, t, mergeLoop_one _ h.grove.forest, mergesTo_one h⟩
    · have hlt : n < 513 := by omega
      lift n to Fin 513 using hlt
      obtain ⟨a, b, us, u, ht⟩ := exists_mergeTurn h.grove (by omega)
      have hlen := ht.perm.length_eq
      simp only [List.length_cons] at hlen
      have hlen' : (us ++ [ITree.node (BitVec.ofNat 10 n.val) a b]).length = us.length + 1 := by simp
      have hmore : ¬ s.members.length ≤ 1 := by rwa [h.grove.forest.queued.length_eq, List.length_map]
      obtain ⟨m, v, t, hloop, hend⟩ := ih (h.turn ht) (by omega) (by simp) (by omega) (by omega) (by omega)
      rw [mergeLoop_turn free hmore n.isLt ht.turn]
      exact ⟨m, v, t, hloop, hend.cons h hn ht⟩

end Sys2Proof.Machine
end

section
/-!
The results of `TBUILD` (`41_tree_builder.md` R130 to R137): the tree that its loops leave, with its numbering and weights.
-/

namespace Sys2Proof.Machine

/-! ### The loops together -/

theorem sum_map_filter_pos {α : Type} (f : α → Nat) (l : List α) :
    ((l.filter fun y => decide (0 < f y)).map f).sum = (l.map f).sum := by
  induction l with
  | nil => rfl
  | cons y l ih =>
    by_cases hy : 0 < f y
    · rw [List.filter_cons_of_pos (by simpa using hy), List.map_cons, List.map_cons, List.sum_cons, List.sum_cons, ih]
    · rw [List.filter_cons_of_neg (by simpa using hy), ih, List.map_cons, List.sum_cons, Nat.eq_zero_of_not_pos hy,
        Nat.zero_add]

/-- The counts of the present symbols add up to all counts (R122). -/
theorem sum_presentSymbols (freq : Vector Nat 257) :
    ((presentSymbols freq).map fun y => freq[y]).sum = freq.toList.sum := by
  rw [presentSymbols, sum_map_filter_pos fun y : Symbol => freq[y]]
  congr 1
  refine List.ext_getElem (by simp) fun i hi _ => ?_
  simp

theorem weighted_map_fst (s : State) (ts : List ITree) : (s.weighted ts).map Prod.fst = ts.map s.treeWeight := by
  rw [State.weighted, List.map_map]
  rfl

theorem weighted_flatMap_syms (s : State) (ts : List ITree) :
    ((s.weighted ts).flatMap fun x => x.2.syms) = forestSyms ts := by
  rw [State.weighted, List.flatMap_map, forestSyms]

section
variable {s u : State} {us : List ITree} (h : Leaves s 0 [] (presentSymbols s.freq) u us)
include h

theorem Leaves.weighted_eq_leafList : u.weighted us = leafList s.freq := h.weighted

theorem Leaves.length_eq : us.length = (leafList s.freq).length := by
  rw [← h.weighted_eq_leafList, State.weighted, List.length_map]

theorem Leaves.sum_treeWeight : (us.map u.treeWeight).sum = s.freq.toList.sum := by
  rw [← weighted_map_fst, h.weighted_eq_leafList, leafList_eq_map, List.map_map]
  exact sum_presentSymbols s.freq

theorem Leaves.forestSyms_eq : forestSyms us = presentFields s.freq (List.finRange 257) := by
  rw [← weighted_flatMap_syms u, h.weighted_eq_leafList, leafList_eq_map, List.flatMap_map]
  exact List.map_eq_flatMap.symm

/-- After the leaf loop no merge has been made. -/
theorem Leaves.merging : Merging u (leafList s.freq).length (leafList s.freq).length us where
  grove := by
    have := h.grove
    rwa [Nat.zero_add, ← leafList_length] at this
  merges _ hk hkn := absurd hkn (Nat.not_lt.mpr hk)
  rising _ hk hkn := by omega
  bound := ⟨0, fun _ _ => Nat.zero_le _, fun hlt => absurd hlt (Nat.lt_irrefl _)⟩

end

/-- Node memory as `TBUILD` leaves it for a frequency table: the tree `t`, its numbering and its weights (R130 to R137). -/
structure BuiltTree (freq : Vector Nat 257) (u : State) (t : ITree) : Prop where
  holds : HoldsTree u t
  shape : t.shape = huffmanTree freq
  syms : t.shape.syms.Perm (presentFields freq (List.finRange 257))
  count : u.nodeCount.toNat = 2 * t.shape.leaves - 1
  root : u.root.toNat = 2 * t.shape.leaves - 2
  weight : (u.entry u.root.toNat).weight = freq.toList.sum
  leafEntries : ∀ (i : Nat) (y : Symbol), (presentSymbols freq)[i]? = some y → u.entry i = leafEntry freq y
  merges : ∀ k, t.shape.leaves ≤ k → k < u.nodeCount.toNat →
    (u.entry k).leaf = false ∧ (u.entry k).left.toNat < k ∧ (u.entry k).right.toNat < k ∧
      (u.entry k).weight = (u.entry (u.entry k).left.toNat).weight + (u.entry (u.entry k).right.toNat).weight
  rising : ∀ k, t.shape.leaves ≤ k → k + 1 < u.nodeCount.toNat → (u.entry k).weight ≤ (u.entry (k + 1)).weight

theorem leaves_eq_of_syms_perm {freq : Vector Nat 257} {t : Shape}
    (h : t.syms.Perm (presentFields freq (List.finRange 257))) : t.leaves = (leafList freq).length := by
  rw [← t.syms_length, h.length_eq, presentFields_eq_map, List.length_map, leafList_length]

/-- The lines of `TBUILD` on an empty priority structure with a symbol present (R130). -/
theorem buildTree_built {s : State} (hpq : s.inPq = 0#513) {y : Symbol} (hy : 0 < s.freq[y]) :
    ∃ nodes root count tick t,
      buildTree s = .ok
        { s with
          nodes := nodes, root := root, nodeCount := count, freeTick := tick, freqValid := false
          treeState := .built } ∧
      BuiltTree s.freq { s with nodes := nodes, root := root, nodeCount := count } t := by
  have hle := leafList_length_le s.freq
  have hpos := leafList_length_pos hy
  obtain ⟨s1, us, hleaves, hleft⟩ := leafLoop_leaves hpq
  have hlen := hleft.length_eq
  obtain ⟨m, s2, t, hmerge, hend⟩ := mergeLoop_mergesTo (free := Config.nodeCap - (leafList s.freq).length) hleft.merging
    (Nat.le_refl _) (List.ne_nil_of_length_pos (by omega)) (by omega) (by unfold Config.nodeCap; omega)
  have hsyms := hend.syms
  rw [hleft.forestSyms_eq] at hsyms
  have hcount := leaves_eq_of_syms_perm hsyms
  have hforest := hend.merging.grove.forest
  have hsize := hforest.size
  rw [forestSyms_cons, forestSyms_nil, List.append_nil, Shape.syms_length, List.length_singleton] at hsize
  have htop := hend.merging.grove.last t rfl
  have hshape := hend.shape us.length (Nat.le_succ _)
  rw [hleft.weighted_eq_leafList, hlen] at hshape
  have hweight := hend.weight.trans hleft.sum_treeWeight
  obtain ⟨t', vs, ht', hmin, hempty⟩ := hforest.queued.extractMin (List.cons_ne_nil _ _)
  obtain ⟨rfl, rfl⟩ := List.cons.inj (List.singleton_perm.mp ht')
  have hmerging := hend.merging
  have hbelow := hend.below
  obtain ⟨nodes, pq, tick, rfl⟩ := hleft.frame.trans hend.frame
  have hm : (BitVec.ofNat 10 m).toNat = m := by rw [BitVec.toNat_ofNat, Nat.mod_eq_of_lt (by omega)]
  refine ⟨nodes, t.top, BitVec.ofNat 10 m, tick, t, ?_, ?_, hshape, hsyms, ?_, ?_, ?_, fun i z hz => ?_, fun k hk hkm => ?_,
    fun k hk hkm => ?_⟩
  · rw [buildTree_of_loops hleaves hmerge hmin, ofNat_toNat_nodeIdx, hpq, ← queued_nil.mp hempty]
    rfl
  · exact hforest.holdsTree (by omega) rfl rfl rfl fun v hv => presentFields_le (hsyms.mem_iff.mp hv)
  · exact hm.trans (by omega)
  · change t.top.toNat = _
    omega
  · exact hweight
  · have hi := (List.getElem?_eq_some_iff.mp hz).1
    refine (hbelow i (by rwa [leafList_length])).trans (entry_of_getElem? ?_)
    have := hleft.entries i z hz
    rwa [Nat.zero_add] at this
  · exact hmerging.merges k (hcount ▸ hk) (hm ▸ hkm)
  · exact hmerging.rising k (hcount ▸ hk) (hm ▸ hkm)

/-- `TBUILD` on a valid frequency table with a symbol present (R130). -/
theorem exec_tbuild_built {s : State} (hrun : s.run = .idle) (hfreq : s.freqValid = true) (hpq : s.inPq = 0#513)
    {y : Symbol} (hy : 0 < s.freq[y]) :
    ∃ nodes root count tick t,
      exec .tbuild s = .next
        { s with
          nodes := nodes, root := root, nodeCount := count, freeTick := tick, freqValid := false, treeState := .built
          codeValid := false } ∧
      BuiltTree s.freq { s with nodes := nodes, root := root, nodeCount := count } t := by
  obtain ⟨nodes, root, count, tick, t, hbuild, htree⟩ := buildTree_built (s := s.dropTree) hpq hy
  refine ⟨nodes, root, count, tick, t, (issue_idle hrun).trans ?_, ?_⟩
  · rw [tbuildBody, hfreq, require_true, andThen_ok, hbuild]
    exact finish_ok hrun
  · exact ⟨htree.holds, htree.shape, htree.syms, htree.count, htree.root, htree.weight, htree.leafEntries, htree.merges,
      htree.rising⟩

/-! ### The numbering of a built tree -/

section
variable {freq : Vector Nat 257} {u : State} {t : ITree} (h : BuiltTree freq u t)
include h

theorem BuiltTree.leaves_eq : t.shape.leaves = (presentSymbols freq).length :=
  (leaves_eq_of_syms_perm h.syms).trans (leafList_length freq)

/-- Each of the first entries is the leaf of a present symbol (R131). -/
theorem BuiltTree.exists_leafEntry {i : Nat} (hi : i < t.shape.leaves) :
    ∃ y, (presentSymbols freq)[i]? = some y ∧ u.entry i = leafEntry freq y := by
  have hi' : i < (presentSymbols freq).length := h.leaves_eq ▸ hi
  exact ⟨_, List.getElem?_eq_getElem hi', h.leafEntries i _ (List.getElem?_eq_getElem hi')⟩

/-- The symbols of the leaves ascend along their indices (R131). -/
theorem BuiltTree.sym_lt {i j : Nat} (hj : j < t.shape.leaves) (hij : i < j) :
    (u.entry i).sym < (u.entry j).sym := by
  obtain ⟨y, hy, hi'⟩ := h.exists_leafEntry (hij.trans hj)
  obtain ⟨z, hz, hj'⟩ := h.exists_leafEntry hj
  obtain ⟨hyl, rfl⟩ := List.getElem?_eq_some_iff.mp hy
  obtain ⟨hzl, rfl⟩ := List.getElem?_eq_some_iff.mp hz
  have hlt := List.pairwise_iff_getElem.mp (presentSymbols_pairwise freq) i j hyl hzl hij
  rw [hi', hj', leafEntry, leafEntry, BitVec.lt_def, ofNat_symbol_toNat, ofNat_symbol_toNat]
  exact hlt

theorem BuiltTree.leafList_entry {i : Nat} {e : Nat × Shape} (he : (leafList freq)[i]? = some e) :
    e = ((u.entry i).weight, .leaf (u.entry i).sym) := by
  rw [leafList_eq_map, List.getElem?_map, Option.map_eq_some_iff] at he
  obtain ⟨y, hy, rfl⟩ := he
  rw [h.leafEntries i y hy]
  rfl

end

/-- The sentinel, when it is present, is the last of the present symbols (R131). -/
theorem presentSymbols_last {freq : Vector Nat 257} (heof : 0 < freq[Config.eofSymbol]) :
    (presentSymbols freq)[(presentSymbols freq).length - 1]? = some Config.eofSymbol := by
  have hlast : List.finRange 257 = (List.finRange 256).map Fin.castSucc ++ [Config.eofSymbol] :=
    List.finRange_succ_last
  rw [presentSymbols, hlast, List.filter_append, List.filter_cons_of_pos (by simpa using heof), List.filter_nil]
  simp

/-- The tree that `TBUILD` leaves has the numbering of R34 (e), when the sentinel is present. -/
theorem BuiltTree.builtNumbering {freq : Vector Nat 257} {u : State} {t : ITree} (h : BuiltTree freq u t)
    (heof : 0 < freq[Config.eofSymbol]) : BuiltNumbering u t := by
  refine ⟨h.count, h.root, fun i hi => ?_, fun j hj i => h.sym_lt hj, ?_, h.syms.nodup_iff.mpr (presentFields_nodup freq),
    fun k hk hle => h.merges k hle (h.count ▸ hk)⟩
  · obtain ⟨y, -, hentry⟩ := h.exists_leafEntry hi
    rw [hentry]
    rfl
  · rw [h.leafEntries _ _ (h.leaves_eq ▸ presentSymbols_last heof)]
    rfl

/-- Settles O23: the two loops leave the leaves in ascending order and then the merges. -/
theorem tbuildResult : Obligations.TbuildResult := by
  intro s hrun hfreq heof hpq
  obtain ⟨nodes, root, count, tick, t, hexec, htree⟩ := exec_tbuild_built hrun hfreq hpq heof
  exact ⟨_, t, hexec, rfl, htree.holds, htree.builtNumbering heof, leaves_eq_of_syms_perm htree.syms,
    fun i e => htree.leafList_entry, htree.weight⟩

/-- Settles O24: each turn of the merge loop is a turn of the textbook's merge. -/
theorem tbuildIsTheGreedyMerge : Obligations.TbuildIsTheGreedyMerge := by
  intro s hrun hfreq heof hpq
  obtain ⟨nodes, root, count, tick, t, hexec, htree⟩ := exec_tbuild_built hrun hfreq hpq heof
  exact ⟨_, t, hexec, htree.holds, htree.shape⟩

/-- Settles O25: a merge weighs no more than any two trees left after it, so the next one weighs no less. -/
theorem mergeWeightsNeverDecrease : Obligations.MergeWeightsNeverDecrease := by
  intro s u hrun hfreq heof hpq hexec k hk hkm
  obtain ⟨nodes, root, count, tick, t, hexec', htree⟩ := exec_tbuild_built hrun hfreq hpq heof
  rw [hexec'] at hexec
  cases hexec
  exact htree.rising k ((leaves_eq_of_syms_perm htree.syms).trans_le hk) hkm

/-! ### No data byte, and one -/

theorem presentSymbols_nodup (freq : Vector Nat 257) : (presentSymbols freq).Nodup := (List.nodup_finRange 257).filter _

/-- With no data byte only the sentinel is present (R134 (b)). -/
theorem presentSymbols_none {freq : Vector Nat 257} (heof : 0 < freq[Config.eofSymbol])
    (hdata : ∀ b : Byte, freq[dataSymbol b] = 0) : presentSymbols freq = [Config.eofSymbol] := by
  refine (List.perm_ext_iff_of_nodup (presentSymbols_nodup freq) (List.nodup_singleton _)).mpr (fun y => ?_)
    |>.eq_singleton
  rw [mem_presentSymbols, List.mem_singleton]
  obtain rfl | ⟨b, rfl⟩ := symbol_cases y
  · exact iff_of_true heof rfl
  · exact iff_of_false (by rw [hdata b]; exact Nat.lt_irrefl 0) (dataSymbol_ne_eofSymbol b)

/-- With one data byte value two symbols are present (R134 (c)). -/
theorem presentSymbols_one {freq : Vector Nat 257} {d : Byte} (heof : 0 < freq[Config.eofSymbol])
    (hd : 0 < freq[dataSymbol d]) (hdata : ∀ b : Byte, b ≠ d → freq[dataSymbol b] = 0) :
    presentSymbols freq = [dataSymbol d, Config.eofSymbol] := by
  have hlt : dataSymbol d < Config.eofSymbol := d.isLt
  refine List.Perm.eq_of_pairwise (le := (· < ·)) (fun a b _ _ hab hba => absurd hab (lt_asymm hba))
    (presentSymbols_pairwise freq) (by simpa using hlt) ?_
  refine (List.perm_ext_iff_of_nodup (presentSymbols_nodup freq) (by simpa using hlt.ne)).mpr fun y => ?_
  rw [mem_presentSymbols, List.mem_cons, List.mem_singleton]
  obtain rfl | ⟨b, rfl⟩ := symbol_cases y
  · exact iff_of_true heof (.inr rfl)
  · by_cases hb : b = d
    · subst hb
      exact iff_of_true hd (.inl rfl)
    · refine iff_of_false (by rw [hdata b hb]; exact Nat.lt_irrefl 0) ?_
      rintro (h | h)
      · exact hb (dataSymbol_inj.mp h)
      · exact dataSymbol_ne_eofSymbol b h

/-- The textbook's merge of two leaves: the lighter one, or the first of equal ones, goes left (R134 (c), R136). -/
theorem huffman_two (x y : Nat × Shape) :
    huffman 2 [x, y] = if y.1 < x.1 then .node y.2 x.2 else .node x.2 y.2 := by
  by_cases h : y.1 < x.1 <;> simp [huffman, takeLeast, h]

theorem ofNat_dataSymbol_eq_setWidth (d : Byte) : BitVec.ofNat 9 (dataSymbol d).val = d.setWidth 9 := by
  refine BitVec.eq_of_toNat_eq ?_
  have := d.isLt
  rw [ofNat_symbol_toNat, BitVec.toNat_setWidth, Nat.mod_eq_of_lt (by omega)]
  rfl

/-- The number of nodes and the root follow from the number of leaves (R34 (e)). -/
theorem BuiltTree.root_count {freq : Vector Nat 257} {u : State} {t : ITree} (h : BuiltTree freq u t) {n : Nat}
    (hn : (presentSymbols freq).length = n) :
    u.root = BitVec.ofNat 10 (2 * n - 2) ∧ u.nodeCount = BitVec.ofNat 10 (2 * n - 1) := by
  have hcount := h.count
  have hroot := h.root
  have hle := leafList_length_le freq
  rw [leafList_length, hn] at hle
  rw [h.leaves_eq, hn] at hcount hroot
  exact ⟨BitVec.eq_of_toNat_eq (by rw [hroot, BitVec.toNat_ofNat, Nat.mod_eq_of_lt (by omega)]),
    BitVec.eq_of_toNat_eq (by rw [hcount, BitVec.toNat_ofNat, Nat.mod_eq_of_lt (by omega)])⟩

/-- Settles O26: the present symbols are one or two, and the textbook's merge of their leaves has one or no turn. -/
theorem smallTreeShapes : Obligations.SmallTreeShapes := by
  intro s hrun hfreq heof hpq
  have hpos : 0 < s.freq[Config.eofSymbol] := by rw [heof]; exact Nat.one_pos
  obtain ⟨nodes, root, count, tick, t, hexec, htree⟩ := exec_tbuild_built hrun hfreq hpq hpos
  refine ⟨_, t, hexec, htree.holds, fun hnone => ?_, fun d hd hone => ?_⟩
  · have hpresent := presentSymbols_none hpos hnone
    obtain ⟨hroot, hcount⟩ := htree.root_count (n := 1) (by rw [hpresent]; rfl)
    refine ⟨?_, hroot, hcount⟩
    rw [htree.shape, huffmanTree, leafList_eq_map, hpresent]
    exact huffman_singleton 1 _
  · have hpresent := presentSymbols_one hpos hd hone
    obtain ⟨hroot, hcount⟩ := htree.root_count (n := 2) (by rw [hpresent]; rfl)
    refine ⟨hroot, hcount, ?_⟩
    rw [htree.shape, huffmanTree, leafList_eq_map, hpresent]
    refine (huffman_two _ _).trans ?_
    simp only [leafItem, heof, ofNat_dataSymbol_eq_setWidth]
    split <;> split
    · omega
    · rfl
    · rfl
    · omega

end Sys2Proof.Machine
end

section
/-!
`COMPRESS` and `DECOMPRESS` in full (`46_top_level.md` R230, R231, R233, R236): the whole next state, step by step.
-/

namespace Sys2Proof.Machine

/-! ### `COMPRESS` -/

/-- In a table that holds the codes of a tree the code of a symbol of the tree is the one the tree gives it (R151). -/
theorem CodesOf.codeOf_eq_code {s : State} {t : Shape} (h : CodesOf s t) {y : Symbol} (hy : BitVec.ofNat 9 y.val ∈ t.syms) :
    s.codeOf y = t.code y := by
  obtain ⟨p, hp⟩ := Shape.mem_syms.mp hy
  obtain ⟨-, hcode⟩ := h
  obtain ⟨e, he⟩ := Option.isSome_iff_exists.mp (List.find?_isSome (p := fun e => e.1.toNat == y.val).mpr
    ⟨_, hp, beq_iff_eq.mpr (ofNat_symbol_toNat y)⟩)
  have hsym := List.find?_some he
  rw [beq_iff_eq] at hsym
  have hfield : e.1 = BitVec.ofNat 9 y.val := BitVec.eq_of_toNat_eq (hsym.trans (ofNat_symbol_toNat y).symm)
  obtain ⟨-, -, hcodeOf⟩ := hcode y e.2 (hfield ▸ List.mem_of_find?_eq_some he)
  rw [hcodeOf, Shape.code, he]
  rfl

/-- The state in which the first three steps of `COMPRESS` leave `s`: the source counted and read, a tree with its codes, and
no frequency table (R230). -/
def State.withCodes (s : State) (nodes : Vector Node 513) (root count : NodeIdx) (tick : Nat) (has : Vector Bool 257)
    (len : Vector CodeLen 257) (value : Vector CodeVal 257) : State :=
  { s with
    freq := countsOf s.src, freqValid := false, treeState := .built, codeValid := true, srcPos := s.srcEnd
    nodes := nodes, root := root, nodeCount := count, freeTick := tick
    codeHas := has, codeLen := len, codeVal := value }

/-- The state in which `ENCODE` leaves `u` when the sink holds `l` after it (R192). -/
def State.withPayload (u : State) (l : List Bool) : State :=
  { u with snkBits := l, srcPos := u.srcEnd, codeValid := false }

/-- The state in which `COMPRESS` leaves the state `s.withCodes …`, here `u`, when `l` has been written (R230). -/
def State.compressed (u : State) (l : List Bool) : State :=
  { u with
    treeState := .none, codeValid := false, snkClosed := true, snkBits := l ++ padding l.length
    snkBytes := some (packBytes (l ++ padding l.length)) }

/-- The first three steps of `COMPRESS`, with the tree of the greedy merge and its codes (R230). -/
theorem runSeq_codes {s : State} (l : List Instr) (hrun : s.run = .idle) (hpos : s.srcPos = 0) (hpq : s.inPq = 0#513)
    (hlen : s.src.length ≤ s.cfg.maxLen) :
    ∃ nodes root count tick has len value t,
      runSeq (.fcount :: .tbuild :: .cgen :: l) s = runSeq l (s.withCodes nodes root count tick has len value) ∧
        Coded s (s.withCodes nodes root count tick has len value) t ∧ t.shape = huffmanTree (countsOf s.src) := by
  have hcount := exec_fcount hrun hlen
  rw [bytesLeft_of_srcPos_zero hpos] at hcount
  obtain ⟨nodes, root, count, tick, t, hbuild, htree⟩ := exec_tbuild_built (s := { s with
      freq := countsOf s.src, freqValid := true, treeState := .none, codeValid := false, srcPos := s.srcEnd })
    hrun rfl hpq (y := Config.eofSymbol) (by rw [countsOf_eofSymbol]; exact Nat.one_pos)
  have hnodup : t.shape.syms.Nodup := htree.syms.nodup_iff.mpr (presentFields_nodup _)
  obtain ⟨has, len, value, tick', hcgen, hcodes⟩ := exec_cgen_codesOf (s := { s with
      freq := countsOf s.src, freqValid := false, treeState := .built, codeValid := false, srcPos := s.srcEnd
      nodes := nodes, root := root, nodeCount := count, freeTick := tick }) hrun rfl htree.holds hnodup
  refine ⟨nodes, root, count, tick', has, len, value, t, ?_, ?_, htree.shape⟩
  · rw [runSeq_cons hcount hrun, runSeq_cons hbuild hrun, runSeq_cons hcgen hrun]
    rfl
  · refine ⟨hrun, rfl, rfl, rfl, rfl, rfl, rfl, htree.holds, hcodes,
      Shape.leaves_le (symbolsOk_of_holdsTree htree.holds) hnodup, fun b hb => ?_, ?_⟩
    · exact htree.syms.mem_iff.mpr (mem_presentFields_countsOf.mpr (.inr ⟨b, hb, rfl⟩))
    · exact htree.syms.mem_iff.mpr (mem_presentFields_countsOf.mpr (.inl rfl))

/-- The codes that `ENCODE` writes for the source are those of the tree (R192, R233). -/
theorem Coded.compressedBits_eq {s u : State} {t : ITree} (h : Coded s u t) (hshape : t.shape = huffmanTree (countsOf s.src)) :
    bits 32 s.cfg.magic.toNat ++ t.shape.ser ++ (s.src.flatMap fun b => u.codeOf (dataSymbol b)) ++
      u.codeOf Config.eofSymbol = compressedBits s.cfg.magic s.src := by
  have hdata : (s.src.flatMap fun b => u.codeOf (dataSymbol b)) = s.src.flatMap fun b => t.shape.code (dataSymbol b) := by
    rw [List.flatMap_def, List.flatMap_def, List.map_congr_left fun b hb => h.codes.codeOf_eq_code (h.data b hb)]
  rw [hdata, h.codes.codeOf_eq_code (y := Config.eofSymbol) h.sentinel, hshape, compressedBits]

/-- `COMPRESS` on an open empty sink, from the start of the source (R230, R233). -/
theorem exec_compress {s : State} (hrun : s.run = .idle) (hpos : s.srcPos = 0) (hopen : s.snkClosed = false)
    (hempty : s.snkBits = []) (hpq : s.inPq = 0#513) (hlen : s.src.length ≤ s.cfg.maxLen) :
    ∃ nodes root count tick has len value,
      exec .compress s = .next ((s.withCodes nodes root count tick has len value).compressed
        (compressedBits s.cfg.magic s.src)) := by
  obtain ⟨hsteps, -⟩ := macroCommandsAreTheirSteps s hrun
  obtain ⟨nodes, root, count, tick, has, len, value, t, hcode, hcoded, hshape⟩ :=
    runSeq_codes [.wmagic, .whdr, .rewind, .encode, .close] hrun hpos hpq hlen
  refine ⟨nodes, root, count, tick, has, len, value, ?_⟩
  rw [hcode, runSeq_wmagic_whdr_rewind _ hcoded hopen] at hsteps
  have hleft : ((s.withCodes nodes root count tick has len value).withHeader t.shape).bytesLeft = s.src :=
    bytesLeft_of_srcPos_zero rfl
  have hbits : ((s.withCodes nodes root count tick has len value).withHeader t.shape).snkBits =
      bits 32 s.cfg.magic.toNat ++ t.shape.ser := by
    rw [← List.nil_append (bits _ _), ← hempty]
    rfl
  have hencode : exec .encode ((s.withCodes nodes root count tick has len value).withHeader t.shape) =
      .next (((s.withCodes nodes root count tick has len value).withHeader t.shape).withPayload
        (compressedBits s.cfg.magic s.src)) := by
    rw [exec_encode_all (s := (s.withCodes nodes root count tick has len value).withHeader t.shape) hrun rfl hopen fun b hb =>
      hcoded.codes.codeHas_of_mem (hcoded.data b (hleft ▸ hb)), hleft, hbits, ← hcoded.compressedBits_eq hshape]
    rfl
  rw [hsteps, runSeq_cons hencode hrun, runSeq_close (s := ((s.withCodes nodes root count tick has len value).withHeader
    t.shape).withPayload _) hrun hopen]
  exact if_pos hrun

/-- Settles O44: the steps write the parts of the stream in turn, and `CLOSE` pads and packs them. -/
theorem compressResult : Obligations.CompressResult := by
  intro s hrun hpos hopen hempty hpq hlen
  obtain ⟨nodes, root, count, tick, has, len, value, hexec⟩ := exec_compress hrun hpos hopen hempty hpq hlen
  exact ⟨_, padding (compressedBits s.cfg.magic s.src).length, _, hexec, hrun, rfl, rfl, rfl, rfl, rfl, rfl, rfl,
    flatMap_packBytes_padded _, padding_length_lt _, fun _ => eq_false_of_mem_padding, rfl⟩

/-! ### `DECOMPRESS` -/

/-- The state in which the first two steps of `DECOMPRESS` leave `s`: past the magic number and the header of `t`, with its tree
in node memory (R231). -/
def State.parsedTree (s : State) (t : Shape) (nodes : Vector Node 513) (tick : Nat) : State :=
  { s with
    srcPos := s.srcPos + (bits 32 s.cfg.magic.toNat ++ t.ser).length, treeState := .parsed, codeValid := false
    root := 0#10, nodeCount := BitVec.ofNat 10 (2 * t.leaves - 1), nodes := nodes, freeTick := tick, stack := [] }

/-- `DECOMPRESS` at the magic number and the header of a tree ends as `DECODE` after them does, with the sink closed (R231). -/
theorem exec_decompress {s : State} {t : Shape} {rest : List Bool} (hrun : s.run = .idle) (hle : t.leaves ≤ 257)
    (hok : t.symbolsOk) (hsrc : s.srcBits.drop s.srcPos = bits 32 s.cfg.magic.toNat ++ t.ser ++ rest) :
    ∃ nodes tick it, it.shape = t ∧ HoldsTree (s.parsedTree t nodes tick) it ∧
      ∀ v, exec .decode (s.parsedTree t nodes tick) = .next v → v.run = .idle → v.snkClosed = false →
        exec .decompress s = .next { v.closeSink with treeState := .none } := by
  obtain ⟨-, hsteps⟩ := macroCommandsAreTheirSteps s hrun
  rw [List.append_assoc] at hsrc
  have hmagic := exec_rmagic_field hrun hsrc
  rw [if_pos rfl] at hmagic
  have hsrc₁ := drop_srcPos_add hsrc
  rw [bits_length] at hsrc₁
  obtain ⟨nodes, tick, it, hheader, hshape, -, htree, -⟩ :=
    exec_rhdr_tree (s := { s with srcPos := s.srcPos + 32 }) hrun hle hok hsrc₁
  refine ⟨nodes, tick, it, hshape, htree, fun v hdecode hidle hopen => ?_⟩
  have hpos : s.srcPos + 32 + t.ser.length = s.srcPos + (bits 32 s.cfg.magic.toNat ++ t.ser).length := by
    rw [List.length_append, bits_length, Nat.add_assoc]
  have hparsed : exec .rhdr { s with srcPos := s.srcPos + 32 } = .next (s.parsedTree t nodes tick) := by
    rw [State.parsedTree, ← hpos]
    exact hheader
  rw [hsteps, runSeq_cons hmagic hrun, runSeq_cons hparsed hrun, runSeq_cons hdecode hidle, runSeq_close hidle hopen]
  exact if_pos hidle

/-- Settles O45: the magic number and the header are read, and the codes are decoded in the tree of the header. -/
theorem decompressResult : Obligations.DecompressResult := by
  intro s t cs e rest hrun hopen hempty hleaves hle hok hcs he hsrc
  rw [List.append_assoc, List.append_assoc] at hsrc
  obtain ⟨nodes, tick, it, rfl, htree, hend⟩ := exec_decompress hrun hle hok hsrc
  have hsrc' : (s.parsedTree it.shape nodes tick).srcBits.drop (s.parsedTree it.shape nodes tick).srcPos =
      cs.flatMap Prod.snd ++ e ++ rest := by
    rw [List.append_assoc]
    exact drop_srcPos_add hsrc
  obtain ⟨cur, hdecode⟩ := exec_decode_codes (s := s.parsedTree it.shape nodes tick) hrun TreeState.noConfusion hopen htree
    hleaves hcs he hsrc'
  refine ⟨_, bytesOfCodes cs, hend _ hdecode hrun hopen, hrun, rfl, rfl, rfl, ?_, bytesOfCodes_map_toNat hok hcs, ?_, rfl⟩
  · have hbits : (s.parsedTree it.shape nodes tick).snkBits = [] := hempty
    rw [State.closeSink_snkBytes]
    simp only [hbits, List.nil_append, packBytes_padded_bytes]
  · exact drop_srcPos_add hsrc'

/-! ### The empty input -/

theorem huffmanTree_countsOf_nil : huffmanTree (countsOf []) = .leaf Config.pseudoEof := by
  rw [huffmanTree, leafList_eq_map, presentSymbols_none (by rw [countsOf_eofSymbol]; exact Nat.one_pos)
    fun b => by rw [countsOf_dataSymbol, List.count_nil]]
  exact huffman_singleton 1 _

/-- The stream of the empty input is the magic number and the header of the sentinel's leaf (R236). -/
theorem compressedBits_nil (m : BitVec 32) :
    compressedBits m [] = bits 32 m.toNat ++ (Shape.leaf Config.pseudoEof).ser ++ [] := by
  have hcode : (Shape.leaf Config.pseudoEof).code Config.eofSymbol = [] := rfl
  rw [compressedBits, huffmanTree_countsOf_nil, hcode, List.flatMap_nil, List.append_nil]

theorem ser_sentinelLeaf :
    (Shape.leaf Config.pseudoEof).ser = [true, true, false, false, false, false, false, false, false, false] := by decide

theorem padding_compressedBits_nil (m : BitVec 32) :
    padding (compressedBits m []).length = List.replicate 6 false := by
  rw [compressedBits_nil, List.append_nil, List.length_append, bits_length, Shape.ser_length]
  rfl

/-- `DECOMPRESS` on the stream of the empty input reads 42 bits and writes none (R236). -/
theorem exec_decompress_empty {s : State} {rest : List Bool} (hrun : s.run = .idle) (hopen : s.snkClosed = false)
    (hempty : s.snkBits = []) (hsrc : s.srcBits.drop s.srcPos = compressedBits s.cfg.magic [] ++ rest) :
    ∃ v, exec .decompress s = .next v ∧ v.run = .idle ∧ v.snkBytes = some [] ∧ v.srcPos = s.srcPos + 42 := by
  rw [compressedBits_nil, List.append_assoc] at hsrc
  have hok : (Shape.leaf Config.pseudoEof).symbolsOk := fun v hv => by
    rw [List.mem_singleton.mp hv]
    decide
  obtain ⟨nodes, tick, it, hshape, htree, hend⟩ := exec_decompress hrun (by decide) hok hsrc
  cases it with
  | node i l r => cases hshape
  | leaf i v =>
    cases hshape
    have hdecode := decodeSingleLeaf (s.parsedTree (.leaf Config.pseudoEof) nodes tick) i _ hrun TreeState.noConfusion hopen
      htree
    rw [if_pos rfl] at hdecode
    refine ⟨_, hend _ hdecode hrun hopen, hrun, ?_, ?_⟩
    · have hbits : (s.parsedTree (.leaf Config.pseudoEof) nodes tick).snkBits = [] := hempty
      rw [State.closeSink_snkBytes, hbits]
      rfl
    · change s.srcPos + (bits 32 s.cfg.magic.toNat ++ (Shape.leaf Config.pseudoEof).ser).length = _
      rw [List.length_append, bits_length, Shape.ser_length]
      rfl

/-- Settles O47: the tree of no byte is the sentinel's leaf, whose code is empty. -/
theorem emptyInput : Obligations.EmptyInput := by
  intro cfg
  obtain ⟨nodes, root, count, tick, has, len, value, hcompress⟩ :=
    exec_compress (s := launch cfg [] []) rfl rfl rfl rfl rfl (Nat.zero_le _)
  have hpacked : (packBytes (compressedBits cfg.magic [] ++ padding (compressedBits cfg.magic []).length)).flatMap byteBits =
      compressedBits cfg.magic [] ++ List.replicate 6 false := by
    rw [flatMap_packBytes_padded, padding_compressedBits_nil]
  obtain ⟨v, hdecompress, hidle, hbytes, hpos⟩ := exec_decompress_empty (rest := List.replicate 6 false)
    (s := launch cfg (packBytes (compressedBits cfg.magic [] ++ padding (compressedBits cfg.magic []).length)) [])
    rfl rfl rfl hpacked
  refine ⟨_, v, packBytes (compressedBits cfg.magic [] ++ padding (compressedBits cfg.magic []).length), hcompress, rfl, rfl,
    ?_, hdecompress, hidle, hbytes, hpos⟩
  rw [hpacked, compressedBits_nil, List.append_nil, ser_sentinelLeaf]

end Sys2Proof.Machine
end

section
/-!
What every step leaves alone (`10_state.md` R35): the parameters, and the bound source unless `SRESET` binds the next one; and
the two invariants at reset (R33).
-/

namespace Sys2Proof.Machine

/-! ### The parameters and the bound source -/

/-- `u` has the parameters and the bound source of `s` (R35). -/
def SameBound (s u : State) : Prop := u.cfg = s.cfg ∧ u.src = s.src

theorem SameBound.of_ambient_eq {s u : State} (h : u.ambient = s.ambient) : SameBound s u :=
  ⟨congrArg (fun a => a.1) h, congrArg (fun a => a.2.2.2.1) h⟩

theorem SameBound.errorEntry {s u : State} (h : SameBound s u) (why : Reason) : SameBound s (errorEntry why u) := by
  rw [errorEntry_keeps]
  exact h

/-- The end of a command writes neither (R25, R257). -/
theorem Ended.Keeps.sameBound_of_finish {e : Ended} {s u : State} (he : e.Keeps s) (h : finish e = .next u) :
    SameBound s u := by
  cases e with
  | ok v =>
    obtain rfl := Host.Outcome.next.inj h
    exact SameBound.of_ambient_eq (u := v) he
  | raised why v =>
    obtain rfl := Host.Outcome.next.inj h
    exact (SameBound.of_ambient_eq he).errorEntry why
  | fault f => cases h
  | refused r => cases h

theorem Ended.Keeps.sameBound_of_continueHeader {e : Ended} {s u : State} (he : e.Keeps s)
    (h : continueHeader e = .next u) : SameBound s u := by
  cases e with
  | ok v =>
    cases hstack : v.stack with
    | nil =>
      rw [continueHeader_done hstack] at h
      exact he.sameBound_of_finish h
    | cons c l =>
      rw [continueHeader_pending hstack] at h
      obtain rfl := Host.Outcome.next.inj h
      exact SameBound.of_ambient_eq he
  | raised why v => exact he.sameBound_of_finish h
  | fault f => cases h
  | refused r => cases h

theorem sameBound_of_issue {body : State → Ended} {s u : State} (hbody : (body s).Keeps s) (h : issue body s = .next u) :
    SameBound s u := by
  unfold issue at h
  split at h
  · exact hbody.sameBound_of_finish h
  · obtain rfl := Host.Outcome.next.inj h
    exact ⟨rfl, rfl⟩
  · obtain rfl := Host.Outcome.next.inj h
    exact ⟨rfl, rfl⟩

theorem endMacro_keeps (s : State) : (endMacro s).Keeps s := rfl

theorem compressBody_keeps (s : State) : (compressBody s).Keeps s :=
  ((((((((fcountBody_keeps s).andThen tbuildBody_keeps).andThen cgenBody_keeps).andThen wmagicBody_keeps).andThen
    whdrBody_keeps).andThen rewindBody_keeps).andThen encodeBody_keeps).andThen closeBody_keeps).andThen endMacro_keeps

theorem decompressBody_keeps (s : State) : (decompressBody s).Keeps s :=
  ((((rmagicBody_keeps s).andThen rhdrBody_keeps).andThen decodeBody_keeps).andThen closeBody_keeps).andThen endMacro_keeps

/-- No command but `SRESET` changes the parameters or the bound source (R35). -/
theorem sameBound_of_command {s u : State} {i : Instr} (hcmd : i ∈ commands) (hi : i ≠ .sreset) (h : exec i s = .next u) :
    SameBound s u := by
  have hformat := mem_commands.mp hcmd
  cases i with
  | fcount => exact sameBound_of_issue (fcountBody_keeps s) h
  | tbuild => exact sameBound_of_issue (tbuildBody_keeps s) h
  | cgen => exact sameBound_of_issue (cgenBody_keeps s) h
  | wmagic => exact sameBound_of_issue (wmagicBody_keeps s) h
  | whdr => exact sameBound_of_issue (whdrBody_keeps s) h
  | rewind => exact sameBound_of_issue (rewindBody_keeps s) h
  | encode => exact sameBound_of_issue (encodeBody_keeps s) h
  | close => exact sameBound_of_issue (closeBody_keeps s) h
  | rmagic => exact sameBound_of_issue (rmagicBody_keeps s) h
  | rhdr => exact sameBound_of_issue (rhdrBody_keeps s) h
  | decode => exact sameBound_of_issue (decodeBody_keeps s) h
  | compress => exact sameBound_of_issue (compressBody_keeps s) h
  | decompress => exact sameBound_of_issue (decompressBody_keeps s) h
  | sreset => exact absurd rfl hi
  | magicWord m => cases hformat
  | hdrInternal => cases hformat
  | hdrLeaf v => cases hformat

/-- `SRESET` keeps the parameters (R35). -/
theorem cfg_of_exec_sreset {s u : State} (h : exec .sreset s = .next u) : u.cfg = s.cfg := by
  cases hrun : s.run with
  | idle =>
    rw [exec_sreset (.inl hrun)] at h
    obtain rfl := Host.Outcome.next.inj h
    rfl
  | busy r =>
    rw [exec_command_busy (by decide) hrun] at h
    obtain rfl := Host.Outcome.next.inj h
    rfl
  | error =>
    rw [exec_sreset (.inr hrun)] at h
    obtain rfl := Host.Outcome.next.inj h
    rfl

/-! ### A step, by the word that is pending -/

/-- A step with a word pending takes it off the list, takes the error entry, or runs the word's command (R24, R102). -/
theorem step_word_cases {s : State} {w : Byte} {rest : List Byte} (hcmds : s.cmds = w :: rest) :
    step s = .next { s with cmds := rest } ∨
      s.run = .idle ∧ step s = .next (errorEntry .illegalCmd { s with cmds := rest }) ∨
        ∃ i ∈ commands, w = commandWord i ∧ step s = exec i { s with cmds := rest } := by
  by_cases hw : w ∈ commandWords
  · obtain ⟨i, hi⟩ := exists_decodeCmd_iff.mpr hw
    obtain ⟨hmem, hword⟩ := decodeCmd_eq_ok.mp hi
    exact .inr (.inr ⟨i, hmem, hword, step_command hcmds hi⟩)
  · by_cases hrun : s.run = .idle
    · exact .inr (.inl ⟨hrun, step_illegal_idle hcmds hw hrun⟩)
    · exact .inl (step_illegal_of_ne_idle hcmds hw hrun)

/-- A step of the waiting magic check is the body of `RMAGIC` (R170). -/
theorem step_checking {s : State} (hrun : s.run = .busy .magic) (hcmds : s.cmds = []) : step s = finish (rmagicBody s) := by
  have hfetch := fetch_of_cmds_nil hcmds hrun
  rw [fetchField, fetchMagic] at hfetch
  cases hread : readBits 32 s with
  | mk m u =>
    rw [hread] at hfetch
    cases m with
    | none => rw [step_of_fetch_raised hfetch, rmagicBody_of_eos hread, finish_raised]
    | some m =>
      obtain ⟨p, rfl⟩ := readBits_snd hread
      rw [step_of_fetch_run hfetch, rmagicBody_of_read hread]
      change execMagicWord m _ = _
      simp only [execMagicWord, hrun]

theorem sameBound_of_step_nil {s u : State} (hcmds : s.cmds = []) (h : step s = .next u) : SameBound s u := by
  cases hrun : s.run with
  | busy r =>
    cases r with
    | magic =>
      rw [step_checking hrun hcmds] at h
      exact (rmagicBody_keeps s).sameBound_of_finish h
    | header =>
      rw [step_reading hrun hcmds] at h
      exact (headerTurn_keeps s).sameBound_of_continueHeader h
  | _ =>
    rw [idleMachineWaits s hcmds (by rw [hrun]; exact fun _ => RunState.noConfusion)] at h
    obtain rfl := Host.Outcome.next.inj h
    exact ⟨rfl, rfl⟩

/-- Settles O58: a pending word runs a command or takes the error entry, a reader takes a field, and only `SRESET` binds. -/
theorem parametersNeverChange : Obligations.ParametersNeverChange := by
  intro s u h
  cases hcmds : s.cmds with
  | nil => exact (sameBound_of_step_nil hcmds h).imp_right .inl
  | cons w rest =>
    obtain hstep | ⟨-, hstep⟩ | ⟨i, hi, rfl, hstep⟩ := step_word_cases hcmds
    · rw [hstep] at h
      obtain rfl := Host.Outcome.next.inj h
      exact ⟨rfl, .inl rfl⟩
    · rw [hstep] at h
      obtain rfl := Host.Outcome.next.inj h
      exact (SameBound.errorEntry (u := { s with cmds := rest }) ⟨rfl, rfl⟩ .illegalCmd).imp_right .inl
    · rw [hstep] at h
      by_cases hsreset : i = .sreset
      · subst hsreset
        exact ⟨cfg_of_exec_sreset (s := { s with cmds := rest }) h, .inr ⟨rest, rfl⟩⟩
      · exact (sameBound_of_command hi hsreset h).imp_right .inl

/-! ### Reset -/

/-- Settles O53: no command has run, and the sink is open and empty. -/
theorem controlInvAtReset : Obligations.ControlInvAtReset where
  atomic := fun _ h => RunState.noConfusion h
  reason := ⟨fun _ h => RunState.noConfusion h, fun _ => rfl⟩
  errorCloses := fun h => RunState.noConfusion h
  callsDone := rfl
  queueEmpty := rfl
  inSource := Nat.zero_le _
  openBytes := fun _ => rfl
  closedBytes := fun h => Bool.noConfusion h

/-- Settles O55: no table is valid. -/
theorem tableInvAtReset : Obligations.TableInvAtReset where
  sentinel := fun h => Bool.noConfusion h
  codesBuilt := fun h => Bool.noConfusion h
  tree := fun h => absurd rfl h

end Sys2Proof.Machine
end

section
/-!
The control invariant over every step (`10_state.md` R24, R26, R30, R32; `20_memory.md` R60, R64, R66, R68; `60_exceptions.md`
R257): what every line of a command keeps, and what the end of a command makes of it.
-/

namespace Sys2Proof.Machine

/-! ### Rules for the lines of a command -/

/-- Where a command, or a line of one, ends well the state meets `P`, and where it raises the reason and the state meet `Q`. -/
def Ended.Meets (P : State → Prop) (Q : Reason → State → Prop) (e : Ended) : Prop :=
  match e with
  | .ok u => P u
  | .raised why u => Q why u
  | .fault _ => True
  | .refused _ => True

theorem Ended.Meets.andThen {P P' : State → Prop} {Q : Reason → State → Prop} {e : Ended} {k : State → Ended}
    (he : e.Meets P Q) (hk : ∀ u, P u → (k u).Meets P' Q) : (e.andThen k).Meets P' Q := by
  cases e with
  | ok u => exact hk u he
  | raised why u => exact he
  | fault f => trivial
  | refused r => trivial

theorem Ended.Meets.mono {P P' : State → Prop} {Q : Reason → State → Prop} {e : Ended} (he : e.Meets P Q)
    (hP : ∀ u, P u → P' u) : e.Meets P' Q := by
  cases e with
  | ok u => exact hP u he
  | raised why u => exact he
  | fault f => trivial
  | refused r => trivial

/-- A test ends well at the state it found, where it holds, and raises there. -/
theorem require_meets {P : State → Prop} {Q : Reason → State → Prop} {p : Bool} {why : Reason} {s : State}
    (htrue : p = true → P s) (hfalse : Q why s) : (require p why s).Meets P Q := by
  cases p with
  | false => exact hfalse
  | true => exact htrue rfl

/-! ### What the lines of a command keep -/

/-- The part of the control invariant that every line of a command keeps (R30, R60, R66, R68). -/
structure Calm (s : State) : Prop where
  queueEmpty : s.inPq = 0#513
  inSource : s.srcPos ≤ s.srcEnd
  openBytes : s.snkClosed = false → s.snkBytes = none
  closedBytes : s.snkClosed = true → s.snkBits.length % 8 = 0 ∧ s.snkBytes = some (packBytes s.snkBits)

/-- A state between two lines of a command that opens no header: no call waits either (R32). -/
structure Resting (s : State) : Prop extends Calm s where
  callsDone : s.stack = []

/-- A state in which a command writes (R67). -/
structure Writing (s : State) : Prop extends Resting s where
  sinkOpen : s.snkClosed = false

/-- What the error entry needs of a `raise`. -/
structure Raisable (why : Reason) (s : State) : Prop extends Calm s where
  reason : why ≠ .noError

theorem Calm.readBits {s : State} (h : Calm s) (w : Nat) : Calm (readBits w s).2 := by
  have hpos := readBits_srcPos_le w h.inSource
  obtain ⟨p, hp, -⟩ := readBits_state w s
  rw [hp] at hpos ⊢
  exact ⟨h.queueEmpty, hpos, h.openBytes, h.closedBytes⟩

theorem Resting.readBits {s u : State} {w : Nat} {v : Option (BitVec w)} (h : Resting s)
    (hread : readBits w s = (v, u)) : Resting u := by
  have hcalm := h.toCalm.readBits w
  obtain ⟨p, rfl⟩ := readBits_snd hread
  rw [hread] at hcalm
  exact ⟨hcalm, h.callsDone⟩

theorem Writing.readBits {s u : State} {w : Nat} {v : Option (BitVec w)} (h : Writing s)
    (hread : readBits w s = (v, u)) : Writing u := by
  have hrest := h.toResting.readBits hread
  obtain ⟨p, rfl⟩ := readBits_snd hread
  exact ⟨hrest, h.sinkOpen⟩

/-- A write to an open sink leaves `snk_bytes` undefined (R66, R67). -/
theorem Writing.writeBits {s : State} (h : Writing s) (w v : Nat) : Writing (s.writeBits w v) where
  queueEmpty := h.queueEmpty
  inSource := h.inSource
  openBytes := h.openBytes
  closedBytes := fun hclosed => Bool.noConfusion (h.sinkOpen.symm.trans hclosed)
  callsDone := h.callsDone
  sinkOpen := h.sinkOpen

/-- The close of R68 packs whole bytes. -/
theorem Writing.closeSink {s : State} (h : Writing s) : Resting s.closeSink where
  queueEmpty := h.queueEmpty
  inSource := h.inSource
  openBytes := fun hopen => Bool.noConfusion hopen
  closedBytes := fun _ => ⟨padded_length s.snkBits, rfl⟩
  callsDone := h.callsDone

theorem Resting.raisable {s : State} {why : Reason} (h : Resting s) (hwhy : why ≠ .noError) : Raisable why s :=
  ⟨h.toCalm, hwhy⟩

/-- The tests of R256. -/
theorem Resting.require_seqError {s : State} {P : State → Prop} {p : Bool} (h : Resting s) (hP : p = true → P s) :
    (require p .seqError s).Meets P Raisable := require_meets hP (h.raisable Reason.noConfusion)

theorem sinkOpen_eq_true {s : State} (h : s.sinkOpen = true) : s.snkClosed = false := by
  rwa [State.sinkOpen, Bool.not_eq_true'] at h

theorem Resting.writing {s : State} {p : Bool} (h : Resting s) (hp : (p && s.sinkOpen) = true) : Writing s :=
  ⟨h, sinkOpen_eq_true (Bool.and_eq_true_iff.mp hp).2⟩

/-! ### The bodies of the compressor -/

theorem Resting.countLoop {s : State} (h : Resting s) (n : Nat) : Resting (countLoop n s) := by
  induction n generalizing s with
  | zero => exact h.readBits rfl
  | succ n ih =>
    rw [Machine.countLoop]
    split
    next u hread => exact h.readBits hread
    next v u hread =>
      have hu := h.readBits hread
      exact ih (s := u.bump v) ⟨⟨hu.queueEmpty, hu.inSource, hu.openBytes, hu.closedBytes⟩, hu.callsDone⟩

theorem Resting.fcountBody {s : State} (h : Resting s) : (fcountBody s).Meets Resting Raisable := by
  unfold Machine.fcountBody
  split
  · trivial
  · have hloop := Resting.countLoop (s := s.dropAll.clearFreq)
      ⟨⟨h.queueEmpty, h.inSource, h.openBytes, h.closedBytes⟩, h.callsDone⟩ (s.srcLeft / 8)
    exact ⟨⟨hloop.queueEmpty, hloop.inSource, hloop.openBytes, hloop.closedBytes⟩, hloop.callsDone⟩

/-- With no symbol present there is nothing to merge (R130). -/
theorem buildTree_none {s : State} (hpq : s.inPq = 0#513) (h : ∀ y : Symbol, ¬ 0 < s.freq[y]) :
    buildTree s = .error .emptyQueue := by
  have hleaves : leafLoop (List.finRange 257) 0 s = .ok (0, s) := by
    rw [← leafLoop_filter, List.filter_eq_nil_iff.mpr fun y _ => by simpa using h y]
    rfl
  have hmerge := mergeLoop_done (Config.nodeCap - 0) 0 (s := s) (by rw [members_eq_nil_iff.mpr hpq]; exact Nat.zero_le 1)
  simp only [buildTree, hleaves, hmerge, extractMin_eq_none_iff.mpr hpq]

theorem Resting.tbuildBody {s : State} (h : Resting s) : (tbuildBody s).Meets Resting Raisable := by
  refine (h.require_seqError fun _ => h).andThen fun u hu => ?_
  by_cases hpresent : ∃ y : Symbol, 0 < u.freq[y]
  · obtain ⟨y, hy⟩ := hpresent
    obtain ⟨nodes, root, count, tick, t, hbuild, -⟩ := buildTree_built (s := u.dropTree) hu.queueEmpty hy
    rw [hbuild]
    exact ⟨⟨hu.queueEmpty, hu.inSource, hu.openBytes, hu.closedBytes⟩, hu.callsDone⟩
  · rw [buildTree_none (s := u.dropTree) hu.queueEmpty (not_exists.mp hpresent)]
    trivial

/-- The walk of `CGEN` writes the code table only, whatever node memory holds (R150). -/
theorem Resting.walk {s : State} (h : Resting s) (d : Nat) (i : NodeIdx) (p : List Bool) :
    (walk d i p s).Meets Resting Raisable := by
  induction d generalizing i p s with
  | zero => trivial
  | succ d ih =>
    rw [Machine.walk]
    split
    · trivial
    · split
      · split
        · trivial
        · exact ⟨⟨h.queueEmpty, h.inSource, h.openBytes, h.closedBytes⟩, h.callsDone⟩
      · exact (ih h _ _).andThen fun u hu => ih hu _ _

theorem Resting.cgenBody {s : State} (h : Resting s) : (cgenBody s).Meets Resting Raisable := by
  refine (h.require_seqError fun _ => h).andThen fun u hu => ?_
  have hcleared : Resting { u with codeValid := false }.clearCodes :=
    ⟨⟨hu.queueEmpty, hu.inSource, hu.openBytes, hu.closedBytes⟩, hu.callsDone⟩
  exact (hcleared.walk _ _ _).andThen fun v hv =>
    ⟨⟨hv.queueEmpty, hv.inSource, hv.openBytes, hv.closedBytes⟩, hv.callsDone⟩

theorem Resting.wmagicBody {s : State} (h : Resting s) : (wmagicBody s).Meets Resting Raisable :=
  (h.require_seqError fun hopen => (Writing.mk h (sinkOpen_eq_true hopen))).andThen fun _ hu =>
    (hu.writeBits 32 _).toResting

/-- The walk of `WHDR` writes to the sink only, whatever node memory holds (R153). -/
theorem Writing.putTree {s : State} (h : Writing s) (d : Nat) (i : NodeIdx) : (putTree d i s).Meets Writing Raisable := by
  induction d generalizing i s with
  | zero => trivial
  | succ d ih =>
    rw [Machine.putTree]
    split
    · trivial
    · split
      · exact (h.writeBits 1 1).writeBits 9 _
      · exact (ih (h.writeBits 1 0) _).andThen fun u hu => ih hu _

theorem Resting.whdrBody {s : State} (h : Resting s) : (whdrBody s).Meets Resting Raisable :=
  (h.require_seqError h.writing).andThen fun _ hu => (hu.putTree _ _).mono fun _ hv => hv.toResting

theorem Resting.rewindBody {s : State} (h : Resting s) : (rewindBody s).Meets Resting Raisable :=
  ⟨⟨h.queueEmpty, Nat.zero_le _, h.openBytes, h.closedBytes⟩, h.callsDone⟩

theorem Writing.encodeLoop {s : State} (h : Writing s) (n : Nat) : (encodeLoop n s).Meets Writing Raisable := by
  induction n generalizing s with
  | zero => exact h.readBits rfl
  | succ n ih =>
    rw [Machine.encodeLoop]
    split
    next u hread => exact h.readBits hread
    next v u hread =>
      have hu := h.readBits hread
      split
      · exact ih (hu.writeBits _ _)
      · exact hu.raisable Reason.noConfusion

theorem Resting.encodeBody {s : State} (h : Resting s) : (encodeBody s).Meets Resting Raisable :=
  (h.require_seqError h.writing).andThen fun _ hu => (hu.encodeLoop _).andThen fun _ hv =>
    have hw := hv.writeBits _ _
    ⟨⟨hw.queueEmpty, hw.inSource, hw.openBytes, hw.closedBytes⟩, hw.callsDone⟩

theorem Resting.closeBody {s : State} (h : Resting s) : (closeBody s).Meets Resting Raisable :=
  (h.require_seqError fun hopen => (Writing.mk h (sinkOpen_eq_true hopen))).andThen fun _ hu => hu.closeSink

/-! ### The bodies of the decompressor -/

theorem Resting.rmagicBody {s : State} (h : Resting s) : (rmagicBody s).Meets Resting Raisable := by
  unfold Machine.rmagicBody
  split
  next u hread => exact (h.readBits hread).raisable Reason.noConfusion
  next m u hread =>
    have hu := h.readBits hread
    exact require_meets (fun _ => hu) (hu.raisable Reason.noConfusion)

/-- The loop of `DECODE` reads and writes, whatever node memory holds (R210). -/
theorem Writing.decodeLoop {s : State} (h : Writing s) (n : Nat) : (decodeLoop n s).Meets Writing Raisable := by
  induction n generalizing s with
  | zero => exact (h.readBits rfl).raisable Reason.noConfusion
  | succ n ih =>
    rw [Machine.decodeLoop]
    split
    next u hread => exact (h.readBits hread).raisable Reason.noConfusion
    next b u hread =>
      have hu := h.readBits hread
      have hcur (v : State) (hv : Writing v) (i : NodeIdx) : Writing { v with cur := i } :=
        ⟨⟨⟨hv.queueEmpty, hv.inSource, hv.openBytes, hv.closedBytes⟩, hv.callsDone⟩, hv.sinkOpen⟩
      split
      · trivial
      · split
        · trivial
        · split
          · split
            · exact hcur u hu _
            · exact ih (hcur _ (hu.writeBits 8 _) _)
          · exact ih (hcur u hu _)

theorem Resting.decodeBody {s : State} (h : Resting s) : (decodeBody s).Meets Resting Raisable := by
  refine (h.require_seqError h.writing).andThen fun u hu => ?_
  split
  · trivial
  · split
    · exact require_meets (fun _ => hu.toResting) (hu.raisable Reason.noConfusion)
    · have hroot : Writing { u with cur := u.root } :=
        ⟨⟨⟨hu.queueEmpty, hu.inSource, hu.openBytes, hu.closedBytes⟩, hu.callsDone⟩, hu.sinkOpen⟩
      exact (hroot.decodeLoop _).mono fun _ hv => hv.toResting

/-! ### The ends of a command -/

theorem ControlInv.resting {s : State} (h : ControlInv s) : Resting s :=
  ⟨⟨h.queueEmpty, h.inSource, h.openBytes, h.closedBytes⟩, h.callsDone⟩

/-- Between commands, outside `ERROR` (R25, R26). -/
theorem Resting.controlInv {s : State} (h : Resting s) (hrun : s.run = .idle) (herr : s.err = .noError) : ControlInv s where
  atomic := fun _ hr => RunState.noConfusion (hrun.symm.trans hr)
  reason := ⟨fun _ hr => RunState.noConfusion (hrun.symm.trans hr), fun _ => herr⟩
  errorCloses := fun hr => RunState.noConfusion (hrun.symm.trans hr)
  callsDone := h.callsDone
  queueEmpty := h.queueEmpty
  inSource := h.inSource
  openBytes := h.openBytes
  closedBytes := h.closedBytes

/-- The error entry leaves whole bytes in a closed sink (R257, R68). -/
theorem errorEntry_closedBytes {s : State} {why : Reason}
    (h : s.snkClosed = true → s.snkBits.length % 8 = 0 ∧ s.snkBytes = some (packBytes s.snkBits)) :
    (errorEntry why s).snkBits.length % 8 = 0 ∧ (errorEntry why s).snkBytes = some (packBytes (errorEntry why s).snkBits) := by
  cases hclosed : s.snkClosed with
  | false =>
    rw [errorEntry_open hclosed]
    exact ⟨padded_length s.snkBits, rfl⟩
  | true =>
    rw [errorEntry_closed hclosed]
    exact h hclosed

/-- The error entry leads to `ERROR` with the invariant (R257). -/
theorem Raisable.controlInv {why : Reason} {s : State} (h : Raisable why s) : ControlInv (errorEntry why s) := by
  have hbytes := errorEntry_closedBytes (why := why) h.closedBytes
  have hclosed := errorEntry_snkClosed why s
  have hkeeps := errorEntry_keeps why s
  refine ⟨fun _ hr => ?_, ⟨fun herr => ?_, fun hr => absurd (errorEntry_run why s) hr⟩, fun _ => hclosed,
    errorEntry_stack why s, ?_, ?_, fun hopen => Bool.noConfusion (hopen.symm.trans hclosed), fun _ => hbytes⟩
  · exact RunState.noConfusion ((errorEntry_run why s).symm.trans hr)
  · exact absurd ((errorEntry_err why s).symm.trans herr) h.reason
  · rw [hkeeps]
    exact h.queueEmpty
  · rw [hkeeps]
    exact h.inSource

/-- A command from `IDLE` leads to a state that meets the invariant when its body does well by it (R24, R25, R257). -/
theorem ControlInv.of_issue {body : State → Ended} {s u : State} (hs : ControlInv s) (hrun : s.run = .idle)
    (hbody : (body s).Meets Resting Raisable) (hkeeps : (body s).Keeps s) (h : issue body s = .next u) : ControlInv u := by
  rw [issue_idle hrun] at h
  cases hend : body s with
  | ok v =>
    rw [hend] at h hbody hkeeps
    have hv : v.run = .idle := (run_of_ambient_eq hkeeps).trans hrun
    have herr : v.err = .noError :=
      (congrArg (fun a => a.2.2.2.2.2) hkeeps).trans (hs.reason.mpr fun hr => RunState.noConfusion (hrun.symm.trans hr))
    rw [finish_ok hv] at h
    obtain rfl := Host.Outcome.next.inj h
    exact Resting.controlInv hbody hv herr
  | raised why v =>
    rw [hend] at h hbody
    obtain rfl := Host.Outcome.next.inj h
    exact Raisable.controlInv hbody
  | fault f => rw [hend] at h; cases h
  | refused r => rw [hend] at h; cases h

end Sys2Proof.Machine
end

section
/-!
The control invariant, command by command and step by step (`30_encoding.md` R103, R104).
-/

namespace Sys2Proof.Machine

/-- The commands that are no sequence of others, but for `SRESET` (R103). -/
def plainCommands : List Instr :=
  [.fcount, .tbuild, .cgen, .wmagic, .whdr, .rewind, .encode, .close, .rmagic, .rhdr, .decode]

theorem controlInv_of_rhdr {s u : State} (hs : ControlInv s) (hrun : s.run = .idle) (h : exec .rhdr s = .next u) :
    ControlInv u := by
  obtain ⟨t, rest, hle, hok, hsrc⟩ | ⟨why, pos, count, m, tick, l, hexec, hwhy, hpos⟩ := rhdr_cases hrun
  · obtain ⟨m, tick, it, hexec, -⟩ := exec_rhdr_tree hrun hle hok hsrc
    obtain rfl := Host.Outcome.next.inj (hexec.symm.trans h)
    have herr : s.err = .noError := hs.reason.mpr (by rw [hrun]; exact RunState.noConfusion)
    exact Resting.controlInv
      ⟨⟨hs.queueEmpty, srcPos_add_length_le hsrc hs.inSource, hs.openBytes, hs.closedBytes⟩, rfl⟩ hrun herr
  · obtain rfl := Host.Outcome.next.inj (hexec.symm.trans h)
    have hraise : why ≠ .noError := by
      rintro rfl
      cases hwhy
    exact Raisable.controlInv ⟨⟨hs.queueEmpty, hpos hs.inSource, hs.openBytes, hs.closedBytes⟩, hraise⟩

theorem controlInv_of_plain {s u : State} {i : Instr} (hi : i ∈ plainCommands) (hs : ControlInv s) (hrun : s.run = .idle)
    (h : exec i s = .next u) : ControlInv u := by
  have hr := hs.resting
  simp only [plainCommands, List.mem_cons, List.not_mem_nil, or_false] at hi
  rcases hi with rfl | rfl | rfl | rfl | rfl | rfl | rfl | rfl | rfl | rfl | rfl
  · exact hs.of_issue hrun hr.fcountBody (fcountBody_keeps s) h
  · exact hs.of_issue hrun hr.tbuildBody (tbuildBody_keeps s) h
  · exact hs.of_issue hrun hr.cgenBody (cgenBody_keeps s) h
  · exact hs.of_issue hrun hr.wmagicBody (wmagicBody_keeps s) h
  · exact hs.of_issue hrun hr.whdrBody (whdrBody_keeps s) h
  · exact hs.of_issue hrun hr.rewindBody (rewindBody_keeps s) h
  · exact hs.of_issue hrun hr.encodeBody (encodeBody_keeps s) h
  · exact hs.of_issue hrun hr.closeBody (closeBody_keeps s) h
  · exact hs.of_issue hrun hr.rmagicBody (rmagicBody_keeps s) h
  · exact controlInv_of_rhdr hs hrun h
  · exact hs.of_issue hrun hr.decodeBody (decodeBody_keeps s) h

/-- A sequence of commands keeps what each of them keeps (R103). -/
theorem controlInv_of_runSeq {l : List Instr} {s u : State} (hl : ∀ i ∈ l, i ∈ plainCommands) (hs : ControlInv s)
    (hrun : s.run = .idle) (h : runSeq l s = .next u) : ControlInv u := by
  induction l generalizing s with
  | nil =>
    obtain rfl := Host.Outcome.next.inj h
    exact hs
  | cons i l ih =>
    obtain ⟨hi, hl⟩ := List.forall_mem_cons.mp hl
    rw [runSeq] at h
    split at h
    next v hv =>
      have hcontrol := controlInv_of_plain hi hs hrun hv
      split at h
      next hidle => exact ih hl hcontrol hidle h
      next =>
        obtain rfl := Host.Outcome.next.inj h
        exact hcontrol
    next => cases h
    next => cases h

/-- The line that ends `COMPRESS` and `DECOMPRESS` touches nothing that the control invariant speaks of (R104). -/
theorem controlInv_of_clearTree {o : Host.Outcome State Fault Refusal} {u : State} (ho : ∀ v, o = .next v → ControlInv v)
    (h : clearTree o = .next u) : ControlInv u := by
  cases o with
  | next v =>
    have hv := ho v rfl
    rw [clearTree] at h
    split at h
    · obtain rfl := Host.Outcome.next.inj h
      exact ⟨hv.atomic, hv.reason, hv.errorCloses, hv.callsDone, hv.queueEmpty, hv.inSource, hv.openBytes, hv.closedBytes⟩
    · obtain rfl := Host.Outcome.next.inj h
      exact hv
  | fault f => cases h
  | refused r => cases h

/-- A command that the table lists is `SRESET`, `COMPRESS`, `DECOMPRESS`, or one of the plain ones (R101, R103). -/
theorem command_cases {i : Instr} (hi : i ∈ commands) :
    i = .sreset ∨ i = .compress ∨ i = .decompress ∨ i ∈ plainCommands := by
  have hall : ∀ j ∈ commands, j = .sreset ∨ j = .compress ∨ j = .decompress ∨ j ∈ plainCommands := by decide
  exact hall i hi

/-- From `IDLE` every command but `SRESET` keeps the control invariant. -/
theorem controlInv_of_command {s u : State} {i : Instr} (hi : i ∈ commands) (hsreset : i ≠ .sreset) (hs : ControlInv s)
    (hrun : s.run = .idle) (h : exec i s = .next u) : ControlInv u := by
  obtain ⟨hcompress, hdecompress⟩ := macroCommandsAreTheirSteps s hrun
  obtain rfl | rfl | rfl | hplain := command_cases hi
  · exact absurd rfl hsreset
  · exact controlInv_of_clearTree (fun _ => controlInv_of_runSeq (by decide) hs hrun) (hcompress.symm.trans h)
  · exact controlInv_of_clearTree (fun _ => controlInv_of_runSeq (by decide) hs hrun) (hdecompress.symm.trans h)
  · exact controlInv_of_plain hplain hs hrun h

theorem controlInv_softReset (s : State) : ControlInv (softReset s) :=
  have hreset := controlInvAtReset
  ⟨hreset.atomic, hreset.reason, hreset.errorCloses, hreset.callsDone, hreset.queueEmpty, Nat.zero_le _, hreset.openBytes,
    hreset.closedBytes⟩

theorem ControlInv.setCmds {s : State} (h : ControlInv s) (l : List Byte) : ControlInv { s with cmds := l } :=
  ⟨h.atomic, h.reason, h.errorCloses, h.callsDone, h.queueEmpty, h.inSource, h.openBytes, h.closedBytes⟩

/-- What a step does while no unit reads: it takes a word off the list, resets, takes the error entry, or runs a command from
`IDLE` (R24, R102, R232, R258). -/
theorem step_cases {s : State} (h : ∀ r, s.run ≠ .busy r) :
    ∃ l, step s = .next { s with cmds := l } ∨ step s = .next (softReset { s with cmds := l }) ∨
      s.run = .idle ∧ (step s = .next (errorEntry .illegalCmd { s with cmds := l }) ∨
        ∃ i ∈ commands, i ≠ .sreset ∧ step s = exec i { s with cmds := l }) := by
  have hrun : s.run = .idle ∨ s.run = .error := by
    cases hrun : s.run with
    | idle => exact .inl rfl
    | busy r => exact absurd hrun (h r)
    | error => exact .inr rfl
  cases hcmds : s.cmds with
  | nil => exact ⟨s.cmds, .inl (idleMachineWaits s hcmds h)⟩
  | cons w rest =>
    refine ⟨rest, ?_⟩
    obtain hstep | ⟨hidle, hstep⟩ | ⟨i, hi, -, hstep⟩ := step_word_cases hcmds
    · exact .inl hstep
    · exact .inr (.inr ⟨hidle, .inl hstep⟩)
    · by_cases hsreset : i = .sreset
      · subst hsreset
        exact .inr (.inl (hstep.trans (exec_sreset hrun)))
      · obtain hidle | herror := hrun
        · exact .inr (.inr ⟨hidle, .inr ⟨i, hi, hsreset, hstep⟩⟩)
        · exact .inl (hstep.trans (exec_error herror hsreset))

/-- Settles O54: the lines of each command keep what the invariant says of the stream and the sink, and the two ends of a
command set the rest. -/
theorem stepKeepsControlInv : Obligations.StepKeepsControlInv := by
  intro s u hs h
  obtain ⟨l, hstep | hstep | ⟨hrun, hstep | ⟨i, hi, hsreset, hstep⟩⟩⟩ := step_cases hs.atomic
  · obtain rfl := Host.Outcome.next.inj (hstep.symm.trans h)
    exact hs.setCmds l
  · obtain rfl := Host.Outcome.next.inj (hstep.symm.trans h)
    exact controlInv_softReset _
  · obtain rfl := Host.Outcome.next.inj (hstep.symm.trans h)
    exact ((hs.setCmds l).resting.raisable Reason.noConfusion).controlInv
  · exact controlInv_of_command hi hsreset (hs.setCmds l) hrun (hstep.symm.trans h)

end Sys2Proof.Machine
end

section
/-!
Every bit string read as a payload (`45_bitstream_decoder.md` R210, R253): codes of data symbols, and then the sentinel's code or
the end of the source inside a code.
-/

namespace Sys2Proof.Machine

theorem Shape.exists_path (t : Shape) : ∃ c, c ∈ t.paths := by
  induction t with
  | leaf v => exact ⟨(v, []), List.mem_singleton.mpr rfl⟩
  | node l r hl hr =>
    obtain ⟨⟨v, p⟩, hp⟩ := hl
    exact ⟨(v, false :: p), Shape.mem_paths_node.mpr (.inl ⟨p, hp, rfl⟩)⟩

/-- The bits end before the leaf of some path. -/
def Shape.CutBy (t : Shape) (l : List Bool) : Prop := ∃ c ∈ t.paths, l <+: c.2 ∧ l ≠ c.2

/-- A walk from the root along the bits meets a leaf, or the end of the bits (R210). -/
theorem Shape.path_or_cutBy (t : Shape) (l : List Bool) : (∃ c ∈ t.paths, ∃ rest, l = c.2 ++ rest) ∨ t.CutBy l := by
  induction t generalizing l with
  | leaf v => exact .inl ⟨(v, []), List.mem_singleton.mpr rfl, l, rfl⟩
  | node tl tr hl hr =>
    have hstep (b : Bool) (l' : List Bool) (t : Shape)
        (ht : ∀ v p, (v, p) ∈ t.paths → (v, b :: p) ∈ (Shape.node tl tr).paths)
        (h : (∃ c ∈ t.paths, ∃ rest, l' = c.2 ++ rest) ∨ t.CutBy l') :
        (∃ c ∈ (Shape.node tl tr).paths, ∃ rest, b :: l' = c.2 ++ rest) ∨ (Shape.node tl tr).CutBy (b :: l') := by
      obtain ⟨⟨v, p⟩, hp, rest, rfl⟩ | ⟨⟨v, p⟩, hp, hpre, hne⟩ := h
      · exact .inl ⟨(v, b :: p), ht v p hp, rest, rfl⟩
      · exact .inr ⟨(v, b :: p), ht v p hp, List.cons_prefix_cons.mpr ⟨rfl, hpre⟩, fun h => hne (List.cons.inj h).2⟩
    cases l with
    | nil =>
      obtain ⟨⟨v, p⟩, hp⟩ := tl.exists_path
      exact .inr ⟨(v, false :: p), Shape.mem_paths_node.mpr (.inl ⟨p, hp, rfl⟩), List.nil_prefix,
        (List.cons_ne_nil _ _).symm⟩
    | cons b l =>
      cases b with
      | false => exact hstep false l tl (fun v p hp => Shape.mem_paths_node.mpr (.inl ⟨p, hp, rfl⟩)) (hl l)
      | true => exact hstep true l tr (fun v p hp => Shape.mem_paths_node.mpr (.inr ⟨p, hp, rfl⟩)) (hr l)

theorem Shape.path_ne_nil {t : Shape} (h : 2 ≤ t.leaves) {v : SymField} {p : List Bool} (hp : (v, p) ∈ t.paths) : p ≠ [] := by
  cases t with
  | leaf x => exact absurd (show 2 ≤ 1 from h) (by decide)
  | node l r =>
    rcases Shape.mem_paths_node.mp hp with ⟨q, -, rfl⟩ | ⟨q, -, rfl⟩
    · exact List.cons_ne_nil _ _
    · exact List.cons_ne_nil _ _

/-- Codes of data symbols of the tree (R210). -/
def Shape.DataCodes (t : Shape) (cs : List (SymField × List Bool)) : Prop :=
  ∀ c ∈ cs, c ∈ t.paths ∧ c.1 ≠ Config.pseudoEof

/-- Every bit string is codes of data symbols and then the sentinel's code, or the end of the bits inside a code (R210, R253). -/
theorem Shape.payload_cases {t : Shape} (ht : 2 ≤ t.leaves) (l : List Bool) :
    ∃ cs, t.DataCodes cs ∧
      ((∃ e rest, (Config.pseudoEof, e) ∈ t.paths ∧ l = cs.flatMap Prod.snd ++ e ++ rest) ∨
        ∃ q, t.CutBy q ∧ l = cs.flatMap Prod.snd ++ q) := by
  induction hn : l.length using Nat.strong_induction_on generalizing l with
  | _ n ih =>
    obtain ⟨⟨v, p⟩, hp, rest, rfl⟩ | hcut := t.path_or_cutBy l
    · by_cases hv : v = Config.pseudoEof
      · subst hv
        exact ⟨[], fun _ hc => absurd hc List.not_mem_nil, .inl ⟨p, rest, hp, rfl⟩⟩
      · have hpos := List.length_pos_of_ne_nil (Shape.path_ne_nil ht hp)
        rw [List.length_append] at hn
        obtain ⟨cs, hcs, hend⟩ := ih rest.length (by simp only at hn hpos; omega) rest rfl
        refine ⟨(v, p) :: cs, List.forall_mem_cons.mpr ⟨⟨hp, hv⟩, hcs⟩, ?_⟩
        refine hend.imp ?_ ?_
        · rintro ⟨e, rest', he, rfl⟩
          exact ⟨e, rest', he, by simp only [List.flatMap_cons, List.append_assoc]⟩
        · rintro ⟨q, hq, rfl⟩
          exact ⟨q, hq, by simp only [List.flatMap_cons, List.append_assoc]⟩
    · exact ⟨[], fun _ hc => absurd hc List.not_mem_nil, .inr ⟨l, hcut, rfl⟩⟩

end Sys2Proof.Machine
end

section
/-!
That every command ends, and keeps the table invariant (`10_state.md` R23, R34; `46_top_level.md` R235): from a state that meets
both invariants each command of R103 answers a next state, which is given by the law of the command.
-/

namespace Sys2Proof.Machine

/-! ### What keeps the table invariant -/

theorem TableInv.errorEntry {s : State} (h : TableInv s) (why : Reason) : TableInv (errorEntry why s) := by
  rw [errorEntry_keeps]
  exact ⟨h.sentinel, h.codesBuilt, h.tree⟩

/-- With no tree valid no code table is valid (R23), and the invariant asks nothing of either. -/
theorem tableInv_of_noTree {s : State} (hfreq : s.freqValid = true → s.freq[Config.eofSymbol] = 1)
    (htree : s.treeState = .none) (hcode : s.codeValid = false) : TableInv s :=
  ⟨hfreq, fun h => Bool.noConfusion (hcode.symm.trans h), fun h => absurd htree h⟩

/-- A valid tree is a tree (R34). -/
theorem TableInv.exists_tree {s : State} (h : TableInv s) (htree : s.treeState ≠ .none) :
    ∃ t, HoldsTree s t ∧ (s.treeState = .built → BuiltNumbering s t) := by
  obtain ⟨t, hholds, hbuilt, -⟩ := h.tree htree
  exact ⟨t, hholds, hbuilt⟩

/-- The outcome is a next state that meets the table invariant, and `P` too when it is in `IDLE`. -/
def EndsIn (o : Host.Outcome State Fault Refusal) (P : State → Prop) : Prop :=
  ∃ u, o = .next u ∧ TableInv u ∧ (u.run = .idle → P u)

/-- A command that takes the error entry with the tables it found ends (R257). -/
theorem endsIn_error {o : Host.Outcome State Fault Refusal} {P : State → Prop} {why : Reason} {v : State}
    (ho : o = .next (errorEntry why v)) (hv : TableInv v) : EndsIn o P :=
  ⟨_, ho, hv.errorEntry why, fun hidle => RunState.noConfusion ((errorEntry_run why v).symm.trans hidle)⟩

/-! ### The compressor -/

theorem endsIn_fcount {s : State} (hrun : s.run = .idle) (hlen : s.src.length ≤ s.cfg.maxLen) :
    EndsIn (exec .fcount s) fun _ => True :=
  ⟨_, exec_fcount hrun hlen, tableInv_of_noTree (fun _ => countsOf_eofSymbol _) rfl rfl, fun _ => trivial⟩

section
variable {s : State} (hrun : s.run = .idle) (hs : TableInv s)
include hrun hs

theorem endsIn_tbuild (hpq : s.inPq = 0#513) : EndsIn (exec .tbuild s) fun _ => True := by
  obtain ⟨hseq, -⟩ := preconditionFailuresRaise s hrun
  cases hfreq : s.freqValid with
  | false => exact endsIn_error (hseq hfreq) hs
  | true =>
    have hpos : 0 < s.freq[Config.eofSymbol] := by rw [hs.sentinel hfreq]; exact Nat.one_pos
    obtain ⟨nodes, root, count, tick, t, hexec, htree⟩ := exec_tbuild_built hrun hfreq hpq hpos
    exact ⟨_, hexec, ⟨fun h => Bool.noConfusion h, fun h => Bool.noConfusion h, fun _ => ⟨t, htree.holds,
      fun _ => htree.builtNumbering hpos, fun h => TreeState.noConfusion h, fun h => Bool.noConfusion h⟩⟩, fun _ => trivial⟩

theorem endsIn_cgen : EndsIn (exec .cgen s) fun _ => True := by
  obtain ⟨-, hseq, -⟩ := preconditionFailuresRaise s hrun
  by_cases hbuilt : s.treeState = .built
  · obtain ⟨t, hholds, hnumbering⟩ := hs.exists_tree (by rw [hbuilt]; exact TreeState.noConfusion)
    obtain ⟨-, -, -, -, -, hnodup, -⟩ := hnumbering hbuilt
    obtain ⟨has, len, value, tick, hexec, hcodes⟩ := exec_cgen_codesOf hrun hbuilt hholds hnodup
    exact ⟨_, hexec, ⟨hs.sentinel, fun _ => hbuilt, fun _ => ⟨t, hholds, hnumbering,
      fun h => TreeState.noConfusion (hbuilt.symm.trans h), fun _ => hcodes⟩⟩, fun _ => trivial⟩
  · exact endsIn_error (hseq hbuilt) hs

theorem endsIn_wmagic : EndsIn (exec .wmagic s) fun _ => True := by
  by_cases hopen : s.snkClosed = false
  · exact ⟨_, exec_wmagic_open hrun hopen, ⟨hs.sentinel, hs.codesBuilt, hs.tree⟩, fun _ => trivial⟩
  · exact endsIn_error (exec_wmagic_closed hrun (eq_true_of_ne_false hopen)) hs

theorem endsIn_whdr : EndsIn (exec .whdr s) fun _ => True := by
  obtain ⟨-, -, hseq, -⟩ := preconditionFailuresRaise s hrun
  by_cases htree : s.treeState = .none
  · exact endsIn_error (hseq (.inl htree)) hs
  by_cases hopen : s.snkClosed = false
  · obtain ⟨t, hholds, -⟩ := hs.exists_tree htree
    exact ⟨_, exec_whdr_open hrun htree hopen hholds hholds.leaves_le, ⟨hs.sentinel, hs.codesBuilt, hs.tree⟩, fun _ => trivial⟩
  · exact endsIn_error (hseq (.inr (eq_true_of_ne_false hopen))) hs

theorem endsIn_rewind : EndsIn (exec .rewind s) fun _ => True :=
  ⟨_, exec_rewind hrun, ⟨hs.sentinel, hs.codesBuilt, hs.tree⟩, fun _ => trivial⟩

/-- `ENCODE` writes the codes of all bytes left, or raises at the first without one (R192, R262). -/
theorem endsIn_encode : EndsIn (exec .encode s) fun u => u.codeValid = false := by
  obtain ⟨-, -, -, -, hseq, -⟩ := preconditionFailuresRaise s hrun
  by_cases hopen : s.snkClosed = false
  swap
  · exact endsIn_error (hseq (.inr (eq_true_of_ne_false hopen))) hs
  cases hcodes : s.codeValid with
  | false => exact endsIn_error (hseq (.inl hcodes)) hs
  | true =>
    cases hfind : s.bytesLeft.find? fun b => !s.codeHas[dataSymbol b] with
    | none =>
      have hhas (b : Byte) (hb : b ∈ s.bytesLeft) : s.codeHas[dataSymbol b] = true := by
        simpa using List.find?_eq_none.mp hfind b hb
      exact ⟨_, exec_encode_all hrun hcodes hopen hhas, ⟨hs.sentinel, fun h => Bool.noConfusion h, fun h => by
        obtain ⟨t, hholds, hbuilt, hparsed, -⟩ := hs.tree h
        exact ⟨t, hholds, hbuilt, hparsed, fun h => Bool.noConfusion h⟩⟩, fun _ => rfl⟩
    | some b =>
      obtain ⟨hb, pre, post, hleft, hpre⟩ := List.find?_eq_some_iff_append.mp hfind
      have hexec := encodeNoCode s pre post b hrun hcodes hopen hleft (fun c hc => by simpa using hpre c hc)
        (by simpa using hb)
      exact endsIn_error hexec ⟨hs.sentinel, hs.codesBuilt, hs.tree⟩

theorem endsIn_close : EndsIn (exec .close s) fun u => u.codeValid = s.codeValid := by
  by_cases hopen : s.snkClosed = false
  · exact ⟨_, exec_close_open hrun hopen, ⟨hs.sentinel, hs.codesBuilt, hs.tree⟩, fun _ => rfl⟩
  · exact endsIn_error (exec_close_closed hrun (eq_true_of_ne_false hopen)) hs

/-! ### The decompressor -/

theorem endsIn_rmagic : EndsIn (exec .rmagic s) fun _ => True := by
  have htables (p : Nat) : TableInv { s with srcPos := p } := ⟨hs.sentinel, hs.codesBuilt, hs.tree⟩
  by_cases hshort : (s.srcBits.drop s.srcPos).length < 32
  · exact endsIn_error (exec_rmagic_short hrun hshort) (htables _)
  · obtain ⟨l, rest, hlen, hl⟩ := exists_append_of_length hshort
    have hfield : s.srcBits.drop s.srcPos = bits 32 (BitVec.ofNat 32 (val l)).toNat ++ rest := by
      rw [bits_toNat_ofNat_val hlen, hl]
    have hexec := exec_rmagic_field hrun hfield
    split at hexec
    · exact ⟨_, hexec, htables _, fun _ => trivial⟩
    · exact endsIn_error hexec (htables _)

theorem endsIn_rhdr : EndsIn (exec .rhdr s) fun u => u.codeValid = false := by
  obtain ⟨t, rest, hle, hok, hsrc⟩ | ⟨why, pos, count, m, tick, l, hexec, -, -⟩ := rhdr_cases hrun
  · obtain ⟨m, tick, it, hexec, hshape, hindices, hholds, -⟩ := exec_rhdr_tree hrun hle hok hsrc
    have hcount : (BitVec.ofNat 10 (2 * t.leaves - 1)).toNat = 2 * t.leaves - 1 := by
      rw [BitVec.toNat_ofNat, Nat.mod_eq_of_lt (by omega)]
    exact ⟨_, hexec, ⟨hs.sentinel, fun h => Bool.noConfusion h, fun _ => ⟨it, hholds, fun h => TreeState.noConfusion h,
      fun _ => hindices.trans (congrArg List.range hcount.symm), fun h => Bool.noConfusion h⟩⟩, fun _ => rfl⟩
  · exact endsIn_error hexec (tableInv_of_noTree hs.sentinel rfl rfl)

/-- `DECODE` ends at the sentinel's code or with the source, for whatever bits are left (R210, R211, R253). -/
theorem endsIn_decode : EndsIn (exec .decode s) fun u => u.codeValid = s.codeValid := by
  obtain ⟨-, -, -, hseq, -⟩ := preconditionFailuresRaise s hrun
  by_cases htree : s.treeState = .none
  · exact endsIn_error (hseq (.inl htree)) hs
  by_cases hopen : s.snkClosed = false
  swap
  · exact endsIn_error (hseq (.inr (eq_true_of_ne_false hopen))) hs
  obtain ⟨t, hholds, -⟩ := hs.exists_tree htree
  cases t with
  | leaf i v =>
    have hexec := decodeSingleLeaf s i v hrun htree hopen hholds
    split at hexec
    · exact ⟨_, hexec, hs, fun _ => rfl⟩
    · exact endsIn_error hexec hs
  | node i l r =>
    have hleaves : 2 ≤ (ITree.node i l r).shape.leaves := Nat.add_le_add l.shape.leaves_pos r.shape.leaves_pos
    obtain ⟨cs, hcs, ⟨e, rest, he, hsrc⟩ | ⟨q, hq, hsrc⟩⟩ := Shape.payload_cases hleaves (s.srcBits.drop s.srcPos)
    · obtain ⟨cur, hexec⟩ := exec_decode_codes hrun htree hopen hholds hleaves hcs he hsrc
      exact ⟨_, hexec, ⟨hs.sentinel, hs.codesBuilt, hs.tree⟩, fun _ => rfl⟩
    · obtain ⟨cur, bytes, hexec, -⟩ := decodeTruncated s _ cs q hrun htree hopen hholds hleaves hcs hq hsrc
      exact endsIn_error hexec ⟨hs.sentinel, hs.codesBuilt, hs.tree⟩

end

/-! ### `COMPRESS` and `DECOMPRESS` -/

/-- A sequence ends when its first command does and, from the state this leaves in `IDLE`, so does the rest (R103). -/
theorem EndsIn.runSeq {i : Instr} {l : List Instr} {s : State} {P Q : State → Prop} (hi : i ∈ plainCommands)
    (hs : ControlInv s) (hrun : s.run = .idle) (h : EndsIn (exec i s) P)
    (hrest : ∀ u, ControlInv u → TableInv u → u.run = .idle → P u → EndsIn (runSeq l u) Q) :
    EndsIn (runSeq (i :: l) s) Q := by
  obtain ⟨u, hexec, htables, hP⟩ := h
  by_cases hidle : u.run = .idle
  · rw [runSeq_cons hexec hidle]
    exact hrest u (controlInv_of_plain hi hs hrun hexec) htables hidle (hP hidle)
  · refine ⟨u, ?_, htables, fun h => absurd h hidle⟩
    rw [Machine.runSeq, hexec]
    exact if_neg hidle

theorem endsIn_runSeq_nil {s : State} {P : State → Prop} (hs : TableInv s) (h : P s) : EndsIn (runSeq [] s) P :=
  ⟨s, rfl, hs, fun _ => h⟩

/-- With the codes invalid the line that ends `COMPRESS` and `DECOMPRESS` may drop the tree (R104, R23). -/
theorem EndsIn.clearTree {o : Host.Outcome State Fault Refusal} (h : EndsIn o fun u => u.codeValid = false) :
    EndsIn (clearTree o) fun _ => True := by
  obtain ⟨u, rfl, htables, hcode⟩ := h
  rw [Machine.clearTree]
  by_cases hidle : u.run = .idle
  · rw [if_pos hidle]
    exact ⟨_, rfl, tableInv_of_noTree htables.sentinel rfl (hcode hidle), fun _ => trivial⟩
  · rw [if_neg hidle]
    exact ⟨u, rfl, htables, fun _ => trivial⟩

/-- `COMPRESS` and `DECOMPRESS` end with `CLOSE`, which keeps the flags (R230, R231). -/
theorem endsIn_runSeq_close {s : State} (hcontrol : ControlInv s) (hs : TableInv s) (hrun : s.run = .idle)
    (hcode : s.codeValid = false) : EndsIn (runSeq [.close] s) fun u => u.codeValid = false :=
  (endsIn_close hrun hs).runSeq (by decide) hcontrol hrun fun _ _ hu _ hkept => endsIn_runSeq_nil hu (hkept.trans hcode)

theorem endsIn_compress {s : State} (hcontrol : ControlInv s) (hrun : s.run = .idle)
    (hlen : s.src.length ≤ s.cfg.maxLen) : EndsIn (exec .compress s) fun _ => True := by
  rw [(macroCommandsAreTheirSteps s hrun).1]
  refine EndsIn.clearTree ?_
  refine (endsIn_fcount hrun hlen).runSeq (by decide) hcontrol hrun fun s hc hs hrun _ => ?_
  refine (endsIn_tbuild hrun hs hc.queueEmpty).runSeq (by decide) hc hrun fun s hc hs hrun _ => ?_
  refine (endsIn_cgen hrun hs).runSeq (by decide) hc hrun fun s hc hs hrun _ => ?_
  refine (endsIn_wmagic hrun hs).runSeq (by decide) hc hrun fun s hc hs hrun _ => ?_
  refine (endsIn_whdr hrun hs).runSeq (by decide) hc hrun fun s hc hs hrun _ => ?_
  refine (endsIn_rewind hrun hs).runSeq (by decide) hc hrun fun s hc hs hrun _ => ?_
  exact (endsIn_encode hrun hs).runSeq (by decide) hc hrun fun s hc hs hrun hcode => endsIn_runSeq_close hc hs hrun hcode

theorem endsIn_decompress {s : State} (hcontrol : ControlInv s) (hs : TableInv s) (hrun : s.run = .idle) :
    EndsIn (exec .decompress s) fun _ => True := by
  rw [(macroCommandsAreTheirSteps s hrun).2]
  refine EndsIn.clearTree ?_
  refine (endsIn_rmagic hrun hs).runSeq (by decide) hcontrol hrun fun s hc hs hrun _ => ?_
  refine (endsIn_rhdr hrun hs).runSeq (by decide) hc hrun fun s hc hs hrun hcode => ?_
  exact (endsIn_decode hrun hs).runSeq (by decide) hc hrun fun s hc hs hrun hkept =>
    endsIn_runSeq_close hc hs hrun (hkept.trans hcode)

/-! ### Every command and every step -/

theorem EndsIn.weaken {o : Host.Outcome State Fault Refusal} {P : State → Prop} (h : EndsIn o P) :
    EndsIn o fun _ => True := by
  obtain ⟨u, ho, htables, -⟩ := h
  exact ⟨u, ho, htables, fun _ => trivial⟩

/-- The outcome is a next state that meets the table invariant, or the refusal of a count pass over a source that is too long
(R298). -/
def EndsOrRefuses (o : Host.Outcome State Fault Refusal) (s : State) : Prop :=
  EndsIn o (fun _ => True) ∨ o = .refused .inputTooLong ∧ s.cfg.maxLen < s.src.length

theorem endsOrRefuses_of_length {s : State} {i : Instr} (hrun : s.run = .idle) (hi : i = .fcount ∨ i = .compress)
    (h : s.src.length ≤ s.cfg.maxLen → EndsIn (exec i s) fun _ => True) : EndsOrRefuses (exec i s) s := by
  by_cases hlen : s.src.length ≤ s.cfg.maxLen
  · exact .inl (h hlen)
  · have hlong := Nat.lt_of_not_le hlen
    obtain ⟨hfcount, hcompress⟩ := overlongSourceIsRefused s hrun hlong
    obtain rfl | rfl := hi
    · exact .inr ⟨hfcount, hlong⟩
    · exact .inr ⟨hcompress, hlong⟩

theorem endsOrRefuses_plain {s : State} {i : Instr} (hi : i ∈ plainCommands) (hcontrol : ControlInv s) (hs : TableInv s)
    (hrun : s.run = .idle) : EndsOrRefuses (exec i s) s := by
  simp only [plainCommands, List.mem_cons, List.not_mem_nil, or_false] at hi
  rcases hi with rfl | rfl | rfl | rfl | rfl | rfl | rfl | rfl | rfl | rfl | rfl
  · exact endsOrRefuses_of_length hrun (.inl rfl) (endsIn_fcount hrun)
  · exact .inl (endsIn_tbuild hrun hs hcontrol.queueEmpty)
  · exact .inl (endsIn_cgen hrun hs)
  · exact .inl (endsIn_wmagic hrun hs)
  · exact .inl (endsIn_whdr hrun hs)
  · exact .inl (endsIn_rewind hrun hs)
  · exact .inl (endsIn_encode hrun hs).weaken
  · exact .inl (endsIn_close hrun hs).weaken
  · exact .inl (endsIn_rmagic hrun hs)
  · exact .inl (endsIn_rhdr hrun hs).weaken
  · exact .inl (endsIn_decode hrun hs).weaken

/-- From `IDLE` every command but `SRESET` ends (R235). -/
theorem endsOrRefuses_command {s : State} {i : Instr} (hi : i ∈ commands) (hsreset : i ≠ .sreset) (hcontrol : ControlInv s)
    (hs : TableInv s) (hrun : s.run = .idle) : EndsOrRefuses (exec i s) s := by
  obtain rfl | rfl | rfl | hplain := command_cases hi
  · exact absurd rfl hsreset
  · exact endsOrRefuses_of_length hrun (.inr rfl) (endsIn_compress hcontrol hrun)
  · exact .inl (endsIn_decompress hcontrol hs hrun)
  · exact endsOrRefuses_plain hplain hcontrol hs hrun

/-- Every step ends from a state of both invariants, and keeps the table invariant (R235). -/
theorem step_endsOrRefuses {s : State} (hcontrol : ControlInv s) (hs : TableInv s) : EndsOrRefuses (step s) s := by
  have hcmds (l : List Byte) : TableInv { s with cmds := l } := ⟨hs.sentinel, hs.codesBuilt, hs.tree⟩
  obtain ⟨l, hstep | hstep | ⟨hrun, hstep | ⟨i, hi, hsreset, hstep⟩⟩⟩ := step_cases hcontrol.atomic
  · exact .inl ⟨_, hstep, hcmds l, fun _ => trivial⟩
  · exact .inl ⟨_, hstep, tableInv_of_noTree (fun h => Bool.noConfusion h) rfl rfl, fun _ => trivial⟩
  · exact .inl (endsIn_error hstep (hcmds l))
  · have hend := endsOrRefuses_command hi hsreset (hcontrol.setCmds l) (hcmds l) hrun
    rw [← hstep] at hend
    exact hend

/-- Settles O56: the law of each command gives the next state, whose valid tables are those the command has written or those it
found. -/
theorem stepKeepsTableInv : Obligations.StepKeepsTableInv := by
  intro s u hcontrol hs h
  obtain ⟨v, hstep, htables, -⟩ | ⟨hrefused, -⟩ := step_endsOrRefuses hcontrol hs
  · obtain rfl := Host.Outcome.next.inj (hstep.symm.trans h)
    exact htables
  · cases hrefused.symm.trans h

/-- Settles O57: the laws of the commands cover every state of both invariants. -/
theorem everyStepEnds : Obligations.EveryStepEnds := fun _ hcontrol hs =>
  (step_endsOrRefuses hcontrol hs).imp_left fun ⟨u, hstep, _⟩ => ⟨u, hstep⟩

end Sys2Proof.Machine
end
